-- ==== Sys2Proof/Word.lean ====
section
/-! DEFINITION. The word widths of the block (spec/30_encoding.md R60, R61; spec/43_status.md R121;
spec/00_scope.md R10). Bit 0 is the least significant (R11). -/

namespace Sys2Proof

/-- A command word (R60): one length, 40 bits. -/
abbrev CmdWord := BitVec 40

/-- The opcode field `w[39:32]` of a command word (R61). -/
abbrev OpcodeByte := BitVec 8

/-- The operand field `w[31:0]` of a command word (R61). -/
abbrev OperandWord := BitVec 32

/-- The 64-bit status response (R121). -/
abbrev StatusWord := BitVec 64

/-- A 16-bit field, read as two's complement (R10, R12): `steps`, `phase`. -/
abbrev Word16 := BitVec 16

end Sys2Proof
end

