-- ==== Sys2Proof/Syntax.lean ====
section
/-! DEFINITION. The six commands of spec/opcode_table.json and the names their operands use. -/

namespace Sys2Proof

/-- The two motors (R10, R17): `L` is the source's `LEFT`, `R` its `RIGHT`. -/
inductive Side where
  | left
  | right
  deriving DecidableEq, Repr

/-- The other motor. -/
def Side.other : Side → Side
  | .left => .right
  | .right => .left

/-- The enum of `direction[s]` (R26). -/
inductive Direction where
  | forward
  | backward
  deriving DecidableEq, Repr

/-- The microstep resolution, the enum of `speed[s]` (R27); it holds no velocity (R17). -/
inductive Resolution where
  | full
  | half
  | quarter
  | eighth
  deriving DecidableEq, Repr

/-- One constructor per row of the opcode table (R62). The counts of `SET_STEPS` are signed integers, as
R66 decodes them. -/
inductive Instr where
  | enable (b : Bool)
  | setRunning (b : Bool)
  | setDirection (side : Side) (d : Direction)
  | setSteps (left right : Int)
  | setSpeed (side : Side) (p : Resolution)
  | status
  deriving DecidableEq, Repr

end Sys2Proof
end

