-- ==== Sys2Proof/WellFormed.lean ====
section
/-! DEFINITION. Which commands have an encoding: each count of `SET_STEPS` fits a signed 16-bit integer
(spec/30_encoding.md R66, R71); every other operand is legal by its type (R63 to R65). -/

namespace Sys2Proof

/-- `-32768 ≤ v ≤ 32767` (R66, R71). -/
def countInRange (v : Int) : Bool :=
  decide (-32768 ≤ v) && decide (v ≤ 32767)

/-- The check of a command's operands. -/
def Instr.wellFormed : Instr → Bool
  | .enable _ => true
  | .setRunning _ => true
  | .setDirection _ _ => true
  | .setSteps l r => countInRange l && countInRange r
  | .setSpeed _ _ => true
  | .status => true

/-- The same check as a proposition. -/
abbrev Instr.WellFormed (i : Instr) : Prop := i.wellFormed = true

end Sys2Proof
end

