-- ==== Sys2Proof/Machine/Operands.lean ====
section
/-! DEFINITION. The operand forms of spec/30_encoding.md (R61, R63 to R67): the register codes, the sign
extension, and the five formats `FB`, `FD`, `FP`, `FS`, `FN`. A format answers `none` when a bit it requires
to be 0 is 1 (R61, R69). Each format has the packing that its reading undoes. -/

namespace Sys2Proof.Machine

/-- `sext_16(v)` (R12): a 16-bit pattern as a signed integer. -/
def sext16 (v : Word16) : Int := v.toInt

/-- A 16-bit field written with an integer `n` holds `n mod 2^16` (R12). -/
def toWord16 (n : Int) : Word16 := BitVec.ofInt 16 n

/-- A count of `SET_STEPS` above 0 arms its side; at or below 0 it means no motion there (R66, R110). -/
def isMotion (v : Int) : Bool := decide (0 < v)

/-- The side bit (R64): 0 = L, 1 = R. -/
def sideOfBit (b : Bool) : Side := if b then .right else .left

def bitOfSide : Side → Bool
  | .left => false
  | .right => true

/-- The direction code (R26, R64): FORWARD 0, BACKWARD 1. -/
def directionOfBit (b : Bool) : Direction := if b then .backward else .forward

def bitOfDirection : Direction → Bool
  | .forward => false
  | .backward => true

/-- The resolution code (R27, R65): FULL 00, HALF 01, QUARTER 10, EIGHTH 11. -/
def resolutionOfCode (c : BitVec 2) : Resolution :=
  if c = 0b00#2 then .full
  else if c = 0b01#2 then .half
  else if c = 0b10#2 then .quarter
  else .eighth

def codeOfResolution : Resolution → BitVec 2
  | .full => 0b00#2
  | .half => 0b01#2
  | .quarter => 0b10#2
  | .eighth => 0b11#2

/-- Format `FB` (R61, R63): `b = operand[0]`; `operand[31:1]` must be 0. -/
def readFB (x : OperandWord) : Option Bool :=
  if x.extractLsb' 1 31 = 0#31 then some (x.getLsbD 0) else none

def packFB (b : Bool) : OperandWord := 0#31 ++ BitVec.ofBool b

/-- Format `FD` (R61, R64): `side = operand[8]`, `d = operand[0]`; `operand[31:9]` and `operand[7:1]` must be 0. -/
def readFD (x : OperandWord) : Option (Side × Direction) :=
  if x.extractLsb' 9 23 = 0#23 ∧ x.extractLsb' 1 7 = 0#7 then
    some (sideOfBit (x.getLsbD 8), directionOfBit (x.getLsbD 0))
  else none

def packFD (s : Side) (d : Direction) : OperandWord :=
  0#23 ++ BitVec.ofBool (bitOfSide s) ++ 0#7 ++ BitVec.ofBool (bitOfDirection d)

/-- Format `FP` (R61, R65): `side = operand[8]`, `p = operand[1:0]`; `operand[31:9]` and `operand[7:2]` must be 0. -/
def readFP (x : OperandWord) : Option (Side × Resolution) :=
  if x.extractLsb' 9 23 = 0#23 ∧ x.extractLsb' 2 6 = 0#6 then
    some (sideOfBit (x.getLsbD 8), resolutionOfCode (x.extractLsb' 0 2))
  else none

def packFP (s : Side) (p : Resolution) : OperandWord :=
  0#23 ++ BitVec.ofBool (bitOfSide s) ++ 0#6 ++ codeOfResolution p

/-- Format `FS` (R61, R66): `left = sext_16(operand[31:16])`, `right = sext_16(operand[15:0])`; no reserved bits. -/
def readFS (x : OperandWord) : Int × Int :=
  (sext16 (x.extractLsb' 16 16), sext16 (x.extractLsb' 0 16))

def packFS (l r : Int) : OperandWord := toWord16 l ++ toWord16 r

/-- Format `FN` (R61, R67): no operand; `operand[31:0]` must be 0. -/
def readFN (x : OperandWord) : Option Unit :=
  if x = 0#32 then some () else none

def packFN : OperandWord := 0#32

end Sys2Proof.Machine
end

