-- ==== Sys2Proof/Decode.lean ====
section
/-! DEFINITION. The decoder of command words (spec/30_encoding.md R60 to R70), total on 40-bit words, the
encoder written from the same formats, and the opcode map as a table of match and mask (R62). -/

namespace Sys2Proof

/-- `opcode = w[39:32]` (R61). -/
def opcodeField (w : CmdWord) : OpcodeByte := w.extractLsb' 32 8

/-- `operand = w[31:0]` (R61). -/
def operandField (w : CmdWord) : OperandWord := w.extractLsb' 0 32

/-- Why a word is reserved (R69). -/
inductive DecodeError where
  /-- The opcode is 0x00 or 0x07 to 0xFF. -/
  | reservedOpcode (op : OpcodeByte)
  /-- The opcode is a command's and a bit its format requires to be 0 is 1. -/
  | reservedBits (op : OpcodeByte) (x : OperandWord)
  deriving DecidableEq, Repr

/-- A format's answer as the decoder's: `none` is a reserved word (R69). -/
def operandOr {α : Type} (op : OpcodeByte) (x : OperandWord) (r : Option α) (k : α → Instr) :
    Except DecodeError Instr :=
  match r with
  | some a => .ok (k a)
  | none => .error (.reservedBits op x)

/-- `decode(w)` (R70). -/
def decode (w : CmdWord) : Except DecodeError Instr :=
  let op := opcodeField w
  let x := operandField w
  if op = 0x01#8 then operandOr op x (Machine.readFB x) Instr.enable
  else if op = 0x02#8 then operandOr op x (Machine.readFB x) Instr.setRunning
  else if op = 0x03#8 then operandOr op x (Machine.readFD x) fun o => Instr.setDirection o.1 o.2
  else if op = 0x04#8 then .ok (Instr.setSteps (Machine.readFS x).1 (Machine.readFS x).2)
  else if op = 0x05#8 then operandOr op x (Machine.readFP x) fun o => Instr.setSpeed o.1 o.2
  else if op = 0x06#8 then operandOr op x (Machine.readFN x) fun _ => Instr.status
  else .error (.reservedOpcode op)

/-- The opcode of a command (R62). -/
def opcodeOf : Instr → OpcodeByte
  | .enable _ => 0x01#8
  | .setRunning _ => 0x02#8
  | .setDirection _ _ => 0x03#8
  | .setSteps _ _ => 0x04#8
  | .setSpeed _ _ => 0x05#8
  | .status => 0x06#8

/-- The operand field of a command, by its format (R61). -/
def operandOf : Instr → OperandWord
  | .enable b => Machine.packFB b
  | .setRunning b => Machine.packFB b
  | .setDirection s d => Machine.packFD s d
  | .setSteps l r => Machine.packFS l r
  | .setSpeed s p => Machine.packFP s p
  | .status => Machine.packFN

/-- The command word of a command (R61, R62). -/
def encode (i : Instr) : CmdWord := opcodeOf i ++ operandOf i

/-- One row of the opcode map (R62): the word is the row's command exactly when `w AND mask = pattern`. -/
structure OpcodeRow where
  mnemonic : String
  pattern : CmdWord
  mask : CmdWord
  deriving DecidableEq, Repr

def OpcodeRow.matches (row : OpcodeRow) (w : CmdWord) : Bool := w &&& row.mask == row.pattern

/-- The opcode map (R62), as spec/opcode_table.json gives it. -/
def opcodeTable : List OpcodeRow :=
  [ ⟨"ENABLE", 0x0100000000#40, 0xFFFFFFFFFE#40⟩,
    ⟨"SET_RUNNING", 0x0200000000#40, 0xFFFFFFFFFE#40⟩,
    ⟨"SET_DIRECTION", 0x0300000000#40, 0xFFFFFFFEFE#40⟩,
    ⟨"SET_STEPS", 0x0400000000#40, 0xFF00000000#40⟩,
    ⟨"SET_SPEED", 0x0500000000#40, 0xFFFFFFFEFC#40⟩,
    ⟨"STATUS", 0x0600000000#40, 0xFFFFFFFFFF#40⟩ ]

/-- The mnemonic of a command in the opcode map (R62). -/
def mnemonicOf : Instr → String
  | .enable _ => "ENABLE"
  | .setRunning _ => "SET_RUNNING"
  | .setDirection _ _ => "SET_DIRECTION"
  | .setSteps _ _ => "SET_STEPS"
  | .setSpeed _ _ => "SET_SPEED"
  | .status => "STATUS"

/-- The command word whose low `nbits` bits are those of `w` and whose other bits are 0; none where the
number has a bit above the 40 of a command word (R60). -/
def tableWord (nbits w : Nat) : Option CmdWord :=
  if w % 2 ^ nbits < 2 ^ 40 then some (BitVec.ofNat 40 (w % 2 ^ nbits)) else none

/-- What the decoder reads from a word of the opcode table, numbered as the table numbers it. -/
def decodeTableWord (nbits w : Nat) : Option Instr :=
  match tableWord nbits w with
  | some v => (decode v).toOption
  | none => none

end Sys2Proof
end

