-- ==== Sys2Proof/Config.lean ====
section
/-! DEFINITION. The implementation parameters of spec/00_scope.md R9. Each is an argument of what uses it:
`PULSE_DIV` is carried by the state (`State.pulseDiv`), the rest are the fields of `Board`. The values R9
calls OPEN are given no value here: a statement about them holds for every board. -/

namespace Sys2Proof

/-- One value for each resolution. -/
structure PerResolution (α : Type) where
  full : α
  half : α
  quarter : α
  eighth : α
  deriving DecidableEq, Repr

def PerResolution.get {α : Type} (t : PerResolution α) : Resolution → α
  | .full => t.full
  | .half => t.half
  | .quarter => t.quarter
  | .eighth => t.eighth

/-- One value for each side. -/
structure PerSide (α : Type) where
  left : α
  right : α
  deriving DecidableEq, Repr

def PerSide.get {α : Type} (t : PerSide α) : Side → α
  | .left => t.left
  | .right => t.right

/-- `PULSE_DIV(sp)` (R9): the number of advancing ticks per step pulse at each resolution. -/
abbrev PulseDiv := PerResolution Nat

/-- The legal values of R9: integers 1..32767 for each of the four resolutions. -/
def PulseDiv.Legal (t : PulseDiv) : Prop :=
  ∀ sp : Resolution, 1 ≤ t.get sp ∧ t.get sp ≤ 32767

/-- The default of R9 (92_eei_decisions.md D9): 1 for every resolution. -/
def PulseDiv.default : PulseDiv := ⟨1, 1, 1, 1⟩

/-- The nine output signals (R127). -/
inductive Signal where
  | en
  | step (s : Side)
  | dir (s : Side)
  | ms1 (s : Side)
  | ms2 (s : Side)
  deriving DecidableEq, Repr

/-- The nine signals, each once (R127). -/
def Signal.all : List Signal :=
  [.en, .step .left, .step .right, .dir .left, .dir .right,
   .ms1 .left, .ms2 .left, .ms1 .right, .ms2 .right]

/-- One value for each of the nine signals. -/
structure NineLines (α : Type) where
  en : α
  step : PerSide α
  dir : PerSide α
  ms1 : PerSide α
  ms2 : PerSide α
  deriving DecidableEq, Repr

def NineLines.get {α : Type} (t : NineLines α) : Signal → α
  | .en => t.en
  | .step s => t.step.get s
  | .dir s => t.dir.get s
  | .ms1 s => t.ms1.get s
  | .ms2 s => t.ms2.get s

/-- The parameters of R9 that no state of the block depends on. -/
structure Board where
  /-- `EN_LEVEL`: the level of the enable line when the driver is enabled (R128). -/
  enLevel : Bool
  /-- `DIR_LEVEL(side, FORWARD)`; BACKWARD has the other level (R9, R129). -/
  forwardLevel : PerSide Bool
  /-- `MS_PIN_CODE(sp)`: bit 0 is driven on MS1, bit 1 on MS2 (R130). -/
  msPinCode : PerResolution (BitVec 2)
  /-- `PIN_MAP`: the physical line of each signal (R133). -/
  pinMap : NineLines Nat
  /-- `TICK_HZ` (R143). -/
  tickHz : Rat
  /-- `PULSE_WIDTH`, in seconds (R131). -/
  pulseWidth : Rat
  deriving DecidableEq, Repr

/-- `DIR_LEVEL(side, dir)` (R9, R129): the two directions of one side are at different levels. -/
def Board.dirLevel (bd : Board) (s : Side) : Direction → Bool
  | .forward => bd.forwardLevel.get s
  | .backward => !(bd.forwardLevel.get s)

/-- The default `MS_PIN_CODE` (R9, R130): the register code of R27. -/
def msPinCodeDefault : PerResolution (BitVec 2) := ⟨0b00#2, 0b01#2, 0b10#2, 0b11#2⟩

/-- The legal values of R9 and the timing constraints of R173. -/
def Board.Legal (bd : Board) : Prop :=
  (∀ a b : Resolution, bd.msPinCode.get a = bd.msPinCode.get b → a = b) ∧
  (∀ a b : Signal, bd.pinMap.get a = bd.pinMap.get b → a = b) ∧
  0 < bd.tickHz ∧ 0 < bd.pulseWidth ∧ bd.pulseWidth < 1 / bd.tickHz

end Sys2Proof
end

