-- ==== Sys2Proof/Machine/State.lean ====
section
/-! DEFINITION. The state of the block (spec/10_state.md), the events it receives (spec/00_scope.md R15), the
reasons a step can stop, and the state right after reset (R42, R160). All of it is plain data. -/

namespace Sys2Proof.Machine

/-- One side's motor record and output latches (R20, R25 to R31). -/
structure Motor where
  /-- `running[s]` (R25). -/
  running : Bool
  /-- `direction[s]` (R26). -/
  direction : Direction
  /-- `speed[s]` (R27). -/
  speed : Resolution
  /-- `steps[s]` (R28): remaining step pulses. -/
  steps : Word16
  /-- `phase[s]` (R29): private to the engine. -/
  phase : Word16
  /-- `dir_out[s]` (R30): the logical direction the DIR line drives. -/
  dirOut : Direction
  /-- `ms_out[s]` (R31): the resolution the MS lines drive. -/
  msOut : Resolution
  deriving DecidableEq, Repr

/-- The events of R15, and the failed initialisation that the reset source may give instead of a completed
`Reset` (R141, R162). -/
inductive Event where
  | reset
  | setupFailed
  | cmd (w : CmdWord)
  | tick
  deriving DecidableEq, Repr

/-- The set of sides that emitted a pulse in one event (R15, R137): a set, with no order. -/
structure Pulses where
  left : Bool
  right : Bool
  deriving DecidableEq, Repr

def Pulses.empty : Pulses := ⟨false, false⟩

/-- The state of the block and, below the line, what the model itself carries (notes/assumptions). -/
structure State where
  /-- `ENABLE` (R23). -/
  enable : Bool
  /-- `RUN_GATE` (R24). -/
  runGate : Bool
  /-- The record and latches of side `L`. -/
  left : Motor
  /-- The record and latches of side `R`. -/
  right : Motor
  /-- `faulted` (R43), the spec's bookkeeping field. -/
  faulted : Bool
  /-- Whether a `Reset` has completed (R162). The model's own [log 6]. -/
  resetDone : Bool
  /-- The parameter `PULSE_DIV` of R9; no event changes it. The model's own [log 4]. -/
  pulseDiv : PulseDiv
  /-- The events still to come, in the total order of R51, first first. The model's own [log 1]; the block
  holds no such queue (R53, R145). -/
  upcoming : List Event
  /-- Output of the latest event: the sides that emitted a pulse (R15). The model's own [log 3]. -/
  pulses : Pulses
  /-- Output of the latest event: the status response, if it gave one (R14, R15). The model's own [log 3]. -/
  response : Option StatusWord
  deriving DecidableEq, Repr

/-- Why the machine stops with a fault. -/
inductive Fault where
  /-- Raised by every step of a state whose `faulted` is set, that is after `raise SetupFailed()` (R43, R141):
  a faulted state takes no further event. Safe: the spec says the block halts there. -/
  | setupFailed
  deriving DecidableEq, Repr

/-- Why a step has no meaning. -/
inductive Refusal where
  /-- Raised by an arm of `exec` whose instruction has no meaning yet (none is left). Safe. -/
  | notModelled (mnemonic : String)
  /-- Raised by a command event whose word is reserved (R69): the spec leaves its effect undefined and tells a
  model to refuse it. Safe. -/
  | reservedWord (w : CmdWord)
  /-- Raised by a command or tick event before the first completed `Reset` (R162). Safe. -/
  | beforeReset
  deriving DecidableEq, Repr

/-- Every field of a record at its reset value (R42). -/
def Motor.reset : Motor where
  running := false
  direction := .forward
  speed := .full
  steps := 0#16
  phase := 0#16
  dirOut := .forward
  msOut := .full

/-- The machine right after `Reset` (R42, R160), with the default `PULSE_DIV` (R9) and no event placed. -/
def State.reset : State where
  enable := false
  runGate := false
  left := Motor.reset
  right := Motor.reset
  faulted := false
  resetDone := true
  pulseDiv := PulseDiv.default
  upcoming := []
  pulses := Pulses.empty
  response := none

/-- The machine before its first `Reset` (R162): the block's own fields hold any value (93 U3), and the
schedule is whatever the agents send. -/
def State.powerUp (enable runGate : Bool) (left right : Motor) (pulseDiv : PulseDiv)
    (upcoming : List Event) : State where
  enable := enable
  runGate := runGate
  left := left
  right := right
  faulted := false
  resetDone := false
  pulseDiv := pulseDiv
  upcoming := upcoming
  pulses := Pulses.empty
  response := none

end Sys2Proof.Machine
end

