-- ==== Sys2Proof/Machine/Flags.lean ====
section
/-! DEFINITION. The status flags `running[L]`, `running[R]`, `ENABLE` and `RUN_GATE` (spec/10_state.md R39):
who writes them and how. The block has no condition codes and no arithmetic flags. -/

namespace Sys2Proof.Machine

/-- `running[s]` after a countdown that left `n` steps (R84): cleared when none is left. -/
def runningAfter (running : Bool) (n : Word16) : Bool :=
  if n = 0#16 then false else running

/-- `running[s] <- 0` (R25), as the engine (R84, R85) and `ENABLE 0` (R95) do. -/
def Motor.stop (m : Motor) : Motor := { m with running := false }

/-- `ENABLE <- b` (R95). -/
def State.setEnable (s : State) (b : Bool) : State := { s with enable := b }

/-- `RUN_GATE <- b` (R99). -/
def State.setRunGate (s : State) (b : Bool) : State := { s with runGate := b }

/-- The term of R81 that both sides share: the driver is enabled and the gate is open. -/
def State.gateOpen (s : State) : Bool := s.enable && s.runGate

end Sys2Proof.Machine
end

