-- ==== Sys2Proof/Machine/Ops.lean ====
section
/-! DEFINITION. The named operations over the motor records, the primitives of spec/00_scope.md R14
(`emit_pulse`, `reject`, `respond`, `raise SetupFailed`), the guard (R105), the reset (R160) and the delivery
of an event. There is no memory, so there are no memory operations (R45). -/

namespace Sys2Proof.Machine

/-- What a meaning answers. -/
abbrev Result := Host.Outcome State Fault Refusal

/-- The record of a side. -/
def State.motor (s : State) : Side → Motor
  | .left => s.left
  | .right => s.right

/-- `s` with the record of one side replaced. -/
def State.setMotor (s : State) (side : Side) (m : Motor) : State :=
  match side with
  | .left => { s with left := m }
  | .right => { s with right := m }

/-- Membership in a pulse set. -/
def Pulses.has (p : Pulses) : Side → Bool
  | .left => p.left
  | .right => p.right

/-- `pulses + {side}` (R86). -/
def Pulses.add (p : Pulses) : Side → Pulses
  | .left => { p with left := true }
  | .right => { p with right := true }

/-- `emit_pulse(side)` (R14, R131): recorded in this event's output; the step line is low again after it. -/
def State.emitPulse (s : State) (side : Side) : State := { s with pulses := s.pulses.add side }

/-- `reject()` (R14, R105): no change to any state and no output. -/
def reject (s : State) : Result := .next s

/-- `respond(v)` (R14): the value returned to the host. -/
def respond (v : StatusWord) (s : State) : Result := .next { s with response := some v }

/-- The enabled state a model reports for a side (R33): the single bit `ENABLE`. -/
def State.enabledOf (s : State) (_side : Side) : Bool := s.enable

/-- The guard of `SET_DIRECTION` and `SET_SPEED` (R105): the side runs. -/
def State.sideBusy (s : State) (side : Side) : Bool := (s.motor side).running

/-- The guard of `SET_STEPS` (R105): either side runs. -/
def State.anyBusy (s : State) : Bool := s.left.running || s.right.running

/-- The lines of a side take the values of its record (R30, R31), at arming and on a pulse tick. -/
def Motor.loadLatches (m : Motor) : Motor := { m with dirOut := m.direction, msOut := m.speed }

/-- Arming (R110): the count is stored, the side runs from phase 0 and its latches are loaded. -/
def Motor.arm (m : Motor) (v : Int) : Motor :=
  { m with steps := toWord16 v, running := true, phase := 0#16 }.loadLatches

/-- No motion on a side (R110): 0 is stored and nothing else is written. -/
def Motor.clearSteps (m : Motor) : Motor := { m with steps := 0#16 }

/-- What `SET_STEPS` does to one side (R110). -/
def Motor.loadCount (m : Motor) (v : Int) : Motor :=
  if isMotion v then m.arm v else m.clearSteps

/-- `Reset` (R160, R161): every field of the block at its value of R42; the parameter and the schedule are no
fields of the block; no pulse and no response. -/
def State.applyReset (s : State) : State :=
  { State.reset with pulseDiv := s.pulseDiv, upcoming := s.upcoming }

/-- `raise SetupFailed()` (R14, R43, R141), the one exception of the block: it sets `faulted` and records no
other value. -/
def raiseSetupFailed (s : State) : State := { s with faulted := true }

/-- The next event is taken from the schedule and the output of the event before it is over (R15). -/
def State.deliver (s : State) (rest : List Event) : State :=
  { s with upcoming := rest, pulses := Pulses.empty, response := none }

/-- No event has arrived: the block takes no step of its own (R18) and gives no output. -/
def State.idle (s : State) : State := s.deliver []

end Sys2Proof.Machine
end

