-- ==== Sys2Proof/Machine/GlobalControl.lean ====
section
/-! DEFINITION. The global control commands `ENABLE` and `SET_RUNNING` (spec/41_global_control.md). Neither is
ever rejected (R104). -/

namespace Sys2Proof.Machine

/-- Both `running` flags cleared (R95). -/
def State.stopBoth (s : State) : State :=
  (s.setMotor .left s.left.stop).setMotor .right s.right.stop

/-- `ENABLE b` (R95): with `b = 0` both `running` flags are cleared. -/
def execEnable (b : Bool) (s : State) : Result :=
  .next (if b then s.setEnable true else (s.setEnable false).stopBoth)

/-- `SET_RUNNING b` (R99). -/
def execSetRunning (b : Bool) (s : State) : Result :=
  .next (s.setRunGate b)

end Sys2Proof.Machine
end

