-- ==== Sys2Proof/Machine/MotionSetup.lean ====
section
/-! DEFINITION. The motion set-up commands `SET_DIRECTION`, `SET_SPEED` and `SET_STEPS`
(spec/42_motion_setup.md), all under the guard of R105: a rejected command has no effect. -/

namespace Sys2Proof.Machine

/-- `SET_DIRECTION side, d` (R106): the record only, no line (R107). -/
def execSetDirection (side : Side) (d : Direction) (s : State) : Result :=
  if s.sideBusy side then reject s
  else .next (s.setMotor side { s.motor side with direction := d })

/-- `SET_SPEED side, p` (R108): the record only, no line (R109). -/
def execSetSpeed (side : Side) (p : Resolution) (s : State) : Result :=
  if s.sideBusy side then reject s
  else .next (s.setMotor side { s.motor side with speed := p })

/-- `SET_STEPS left, right` (R110): both sides in one step (R111), or rejected as a whole. -/
def execSetSteps (left right : Int) (s : State) : Result :=
  if s.anyBusy then reject s
  else .next ((s.setMotor .left (s.left.loadCount left)).setMotor .right (s.right.loadCount right))

end Sys2Proof.Machine
end

