-- ==== Sys2Proof/Machine/StatusRead.lean ====
section
/-! DEFINITION. The status read (spec/43_status.md). -/

namespace Sys2Proof.Machine

/-- The 21 low bits of a half of the response (R121), bits 20 to 0: enabled, speed, direction, running, steps. -/
def State.statusFields (s : State) (side : Side) : BitVec 21 :=
  BitVec.ofBool (s.enabledOf side) ++ codeOfResolution (s.motor side).speed
    ++ BitVec.ofBool (bitOfDirection (s.motor side).direction)
    ++ BitVec.ofBool (s.motor side).running ++ (s.motor side).steps

/-- The 64-bit snapshot (R120, R121), most significant field first. -/
def State.statusWord (s : State) : StatusWord :=
  0#7 ++ BitVec.ofBool s.runGate ++ 0#3 ++ s.statusFields .right ++ 0#11 ++ s.statusFields .left

/-- `STATUS` (R120): responds with the snapshot and writes no state. -/
def execStatus (s : State) : Result := respond s.statusWord s

end Sys2Proof.Machine
end

