-- ==== Sys2Proof/Machine/Dispatch.lean ====
section
/-! DEFINITION. One arm per command of spec/opcode_table.json. -/

namespace Sys2Proof.Machine

def exec (i : Instr) (s : State) : Host.Outcome State Fault Refusal :=
  match i with
  | .enable b => Sys2Proof.Machine.execEnable b s
  | .setRunning b => Sys2Proof.Machine.execSetRunning b s
  | .setDirection side d => Sys2Proof.Machine.execSetDirection side d s
  | .setSteps left right => Sys2Proof.Machine.execSetSteps left right s
  | .setSpeed side p => Sys2Proof.Machine.execSetSpeed side p s
  | .status => Sys2Proof.Machine.execStatus s

end Sys2Proof.Machine
end

