-- ==== Sys2Proof/Machine/Engine.lean ====
section
/-! DEFINITION. The stepper engine (spec/40_stepper_engine.md): what a tick does. -/

namespace Sys2Proof.Machine

/-- Whether the tick advances a side (R81). -/
def State.advances (s : State) (side : Side) : Bool := s.gateOpen && (s.motor side).running

/-- Whether the new phase makes this a pulse tick (R82). -/
def isPulseTick (div : PulseDiv) (sp : Resolution) (phase : Word16) : Bool :=
  decide ((div.get sp : Int) ≤ sext16 phase)

/-- One step pulse counted down (R83, R84): `running` is cleared in the same step when no step is left. -/
def Motor.countDown (m : Motor) : Motor :=
  let n := m.steps - 1#16
  { m with steps := n, running := runningAfter m.running n }

/-- Whether a pulse tick emits a pulse (R83, R85). -/
def Motor.hasSteps (m : Motor) : Bool := decide (0 < sext16 m.steps)

/-- A pulse tick of a side (R83 to R85), after its phase counter went back to 0. -/
def State.pulseTick (s : State) (side : Side) : State :=
  if (s.motor side).hasSteps then
    (s.emitPulse side).setMotor side (s.motor side).loadLatches.countDown
  else
    s.setMotor side (s.motor side).stop

/-- The engine's work on one side (R81 to R86). -/
def State.engineSide (s : State) (side : Side) : State :=
  if s.advances side then
    let m := s.motor side
    let phase := m.phase + 1#16
    if isPulseTick s.pulseDiv m.speed phase then
      (s.setMotor side { m with phase := 0#16 }).pulseTick side
    else
      s.setMotor side { m with phase := phase }
  else s

/-- `TICK` (R86): both sides in one step. -/
def State.tick (s : State) : State := (s.engineSide .left).engineSide .right

end Sys2Proof.Machine
end

