-- ==== Sys2Proof/Machine/Events.lean ====
section
/-! DEFINITION. What each event does (spec/00_scope.md R15), with the admission rules: a command or a tick only
after the first completed `Reset` (R162), a reserved word refused (R69), nothing once faulted (R43, R141). -/

namespace Sys2Proof.Machine

/-- A `Cmd(w)` event (R15): refused before the first `Reset` (R162) and for a reserved word (R69). -/
def onCommand (w : CmdWord) (s : State) : Result :=
  if s.resetDone then
    match decode w with
    | .ok i => exec i s
    | .error _ => .refused (.reservedWord w)
  else .refused .beforeReset

/-- A `Tick` event (R80, R144): refused before the first `Reset` (R162), else it always completes. -/
def onTick (s : State) : Result :=
  if s.resetDone then .next s.tick else .refused .beforeReset

/-- A `Reset` event (R160, R161). -/
def onReset (s : State) : Result := .next s.applyReset

/-- The reset source's `SetupFailed` (R141, R162). -/
def onSetupFailed (s : State) : Result := .next (raiseSetupFailed s)

/-- One event, applied as one atomic step (R48). -/
def onEvent (e : Event) (s : State) : Result :=
  match e with
  | .reset => onReset s
  | .setupFailed => onSetupFailed s
  | .cmd w => onCommand w s
  | .tick => onTick s

/-- The next event of the schedule, or none yet (R18, R51). -/
def takeEvent (s : State) : Result :=
  match s.upcoming with
  | [] => .next s.idle
  | e :: rest => onEvent e (s.deliver rest)

/-- A faulted state takes no further event (R43, R141). -/
def react (s : State) : Result :=
  if s.faulted then .fault .setupFailed else takeEvent s

/-- The schedule with one command word put first: the host issues it next. -/
def State.issue (s : State) (w : CmdWord) : State := { s with upcoming := .cmd w :: s.upcoming }

end Sys2Proof.Machine
end

