-- ==== Sys2Proof/Machine/Step.lean ====
section
/-! DEFINITION. One step of the machine: one event (spec/00_scope.md R15; spec/20_memory.md R48). -/

namespace Sys2Proof.Machine

/-- One step: the next event of the schedule, applied atomically. -/
def step (s : State) : Host.Outcome State Fault Refusal := react s

/-- The host issues the table's word as its next command: the block fetches nothing (R22, R56), a command
reaches it as the next event. A number with a bit above the 40 of a command word changes nothing. -/
def State.withFetchWord (s : State) (nbits w : Nat) : State :=
  match tableWord nbits w with
  | some v => s.issue v
  | none => s

end Sys2Proof.Machine
end

