-- ==== Sys2Proof/Machine/Assembler.lean ====
section
/-! DEFINITION. The assembler syntax of spec/30_encoding.md R71, in its canonical and its source spelling, and
the event lines of test programs (R72). A program is a list of lines; it becomes the events it stands for. -/

namespace Sys2Proof.Machine

/-- A token of a line: a word, or one of the punctuation marks of R71. -/
inductive Token where
  | word (name : String)
  | comma
  | lparen
  | rparen
  deriving DecidableEq, Repr

/-- The word collected so far (last character first), if any, before the tokens that follow it. -/
def flushWord (acc : List Char) (rest : List Token) : List Token :=
  match acc with
  | [] => rest
  | _ => .word (String.ofList acc.reverse) :: rest

/-- The tokens of a line; blanks separate and a semicolon starts a comment. -/
def tokens : List Char → List Char → List Token
  | [], acc => flushWord acc []
  | c :: cs, acc =>
    if c = ';' then flushWord acc []
    else if c = ' ' then flushWord acc (tokens cs [])
    else if c = ',' then flushWord acc (.comma :: tokens cs [])
    else if c = '(' then flushWord acc (.lparen :: tokens cs [])
    else if c = ')' then flushWord acc (.rparen :: tokens cs [])
    else tokens cs (c :: acc)

/-- Comma-separated operands, at most two. -/
def canonicalOperands : List Token → Option (List String)
  | [] => some []
  | [.word a] => some [a]
  | [.word a, .comma, .word b] => some [a, b]
  | _ => none

/-- The same in parentheses. -/
def sourceOperands : List Token → Option (List String)
  | [.lparen, .rparen] => some []
  | [.lparen, .word a, .rparen] => some [a]
  | [.lparen, .word a, .comma, .word b, .rparen] => some [a, b]
  | _ => none

/-- `<true|false>` (R71). -/
def readTruth (t : String) : Option Bool :=
  if t = "true" then some true else if t = "false" then some false else none

/-- `<b>` (R71). -/
def readBool (t : String) : Option Bool :=
  if t = "1" then some true else if t = "0" then some false else readTruth t

/-- `<LEFT|RIGHT>` (R71). -/
def readSideName (t : String) : Option Side :=
  if t = "LEFT" then some .left else if t = "RIGHT" then some .right else none

/-- `<side>` (R71). -/
def readSide (t : String) : Option Side :=
  if t = "L" then some .left else if t = "R" then some .right else readSideName t

/-- `<dir>` (R71). -/
def readDirection (t : String) : Option Direction :=
  if t = "FORWARD" then some .forward else if t = "BACKWARD" then some .backward else none

/-- `<res>` (R71). -/
def readResolution (t : String) : Option Resolution :=
  if t = "FULL" then some .full
  else if t = "HALF" then some .half
  else if t = "QUARTER" then some .quarter
  else if t = "EIGHTH" then some .eighth
  else none

/-- Decimal digits, most significant first, after the value `n`. -/
def readDigits : List Char → Nat → Option Nat
  | [], n => some n
  | c :: cs, n => if c.isDigit then readDigits cs (10 * n + (c.toNat - 48)) else none

def readNat : List Char → Option Nat
  | [] => none
  | cs => readDigits cs 0

def readInt : List Char → Option Int
  | '-' :: cs => (readNat cs).map fun n => -(n : Int)
  | cs => (readNat cs).map fun n => (n : Int)

/-- A count (R71): an integer outside -32768..32767 does not assemble. -/
def readCount (t : String) : Option Int :=
  match readInt t.toList with
  | some v => if countInRange v then some v else none
  | none => none

/-- Both operands, or nothing. -/
def both {α β : Type} (a : Option α) (b : Option β) (k : α → β → Instr) : Option Instr :=
  match a, b with
  | some x, some y => some (k x y)
  | _, _ => none

/-- The canonical syntax (R71). -/
def assembleCanonical (m : String) : List String → Option Instr
  | [] => if m = "STATUS" then some .status else none
  | [a] =>
    if m = "ENABLE" then (readBool a).map .enable
    else if m = "SET_RUNNING" then (readBool a).map .setRunning
    else none
  | [a, b] =>
    if m = "SET_DIRECTION" then both (readSide a) (readDirection b) .setDirection
    else if m = "SET_STEPS" then both (readCount a) (readCount b) .setSteps
    else if m = "SET_SPEED" then both (readSide a) (readResolution b) .setSpeed
    else none
  | _ => none

/-- The source spelling (R71). -/
def assembleSource (m : String) : List String → Option Instr
  | [] => if m = "status" then some .status else none
  | [a] =>
    if m = "enable" then (readTruth a).map .enable
    else if m = "setRunning" then (readTruth a).map .setRunning
    else none
  | [a, b] =>
    if m = "setDirection" then both (readSideName a) (readDirection b) .setDirection
    else if m = "setSteps" then both (readCount a) (readCount b) .setSteps
    else if m = "setSpeed" then both (readSideName a) (readResolution b) .setSpeed
    else none
  | _ => none

/-- The command of a line's tokens, in either spelling. -/
def assembleTokens : List Token → Option Instr
  | .word m :: rest =>
    match canonicalOperands rest with
    | some ops => assembleCanonical m ops
    | none =>
      match sourceOperands rest with
      | some ops => assembleSource m ops
      | none => none
  | _ => none

/-- One command line (R71). -/
def assemble (line : String) : Option Instr := assembleTokens (tokens line.toList [])

/-- The event of a command line: the word the command encodes to. -/
def commandEvents (ts : List Token) : Option (List Event) :=
  (assembleTokens ts).map fun i => [.cmd (encode i)]

/-- One line of a test program: an event line of R72, a command line, or nothing. -/
def lineEvents (line : String) : Option (List Event) :=
  match tokens line.toList [] with
  | [] => some []
  | [.word m] =>
    if m = "RESET" then some [.reset]
    else if m = "TICK" then some [.tick]
    else commandEvents [.word m]
  | [.word m, .word a] =>
    if m = "TICK" then (readNat a.toList).map fun n => List.replicate n .tick
    else commandEvents [.word m, .word a]
  | ts => commandEvents ts

/-- The events of a test program, none if a line does not assemble. -/
def programEvents : List String → Option (List Event)
  | [] => some []
  | l :: ls =>
    match lineEvents l, programEvents ls with
    | some es, some fs => some (es ++ fs)
    | _, _ => none

def nameOfSide : Side → String
  | .left => "L"
  | .right => "R"

def nameOfDirection : Direction → String
  | .forward => "FORWARD"
  | .backward => "BACKWARD"

def nameOfResolution : Resolution → String
  | .full => "FULL"
  | .half => "HALF"
  | .quarter => "QUARTER"
  | .eighth => "EIGHTH"

/-- The decimal digits of a natural number, most significant first (the first argument bounds their number). -/
def decimalDigits : Nat → Nat → List Char
  | 0, _ => []
  | k + 1, n => (if n < 10 then [] else decimalDigits k (n / 10)) ++ [Char.ofNat (48 + n % 10)]

/-- A count in decimal (R71). -/
def countText (v : Int) : List Char :=
  if v < 0 then '-' :: decimalDigits (v.natAbs + 1) v.natAbs else decimalDigits (v.natAbs + 1) v.natAbs

def nameOfBool (b : Bool) : String := if b then "1" else "0"

/-- The canonical text of a command (R71). -/
def canonicalText : Instr → String
  | .enable b => "ENABLE " ++ nameOfBool b
  | .setRunning b => "SET_RUNNING " ++ nameOfBool b
  | .setDirection s d => "SET_DIRECTION " ++ nameOfSide s ++ ", " ++ nameOfDirection d
  | .setSteps l r => "SET_STEPS " ++ String.ofList (countText l) ++ ", " ++ String.ofList (countText r)
  | .setSpeed s p => "SET_SPEED " ++ nameOfSide s ++ ", " ++ nameOfResolution p
  | .status => "STATUS"

end Sys2Proof.Machine
end

