-- ==== Sys2Proof/Machine/Lines.lean ====
section
/-! DEFINITION. The nine output lines (spec/44_gpio_control_mux.md): their levels after an event are a function
of the state after it (R139); the pulses of a tick are `State.pulses`. -/

namespace Sys2Proof.Machine

/-- The `EN` line (R128). -/
def enLine (bd : Board) (s : State) : Bool := if s.enable then bd.enLevel else !bd.enLevel

/-- The `DIR_s` line (R129). -/
def dirLine (bd : Board) (s : State) (side : Side) : Bool := bd.dirLevel side (s.motor side).dirOut

/-- The code `MS2_s, MS1_s` drive (R130). -/
def msCode (bd : Board) (s : State) (side : Side) : BitVec 2 := bd.msPinCode.get (s.motor side).msOut

/-- The level of a signal between events; a step line is low there (R131). -/
def lineLevel (bd : Board) (s : State) : Signal → Bool
  | .en => enLine bd s
  | .step _ => false
  | .dir side => dirLine bd s side
  | .ms1 side => (msCode bd s side).getLsbD 0
  | .ms2 side => (msCode bd s side).getLsbD 1

/-- The levels of the nine lines (R15, R127). -/
def State.lines (bd : Board) (s : State) : NineLines Bool where
  en := lineLevel bd s .en
  step := ⟨lineLevel bd s (.step .left), lineLevel bd s (.step .right)⟩
  dir := ⟨lineLevel bd s (.dir .left), lineLevel bd s (.dir .right)⟩
  ms1 := ⟨lineLevel bd s (.ms1 .left), lineLevel bd s (.ms1 .right)⟩
  ms2 := ⟨lineLevel bd s (.ms2 .left), lineLevel bd s (.ms2 .right)⟩

/-- The level of a physical line (R133): that of the signal `PIN_MAP` puts there, if there is one. -/
def physicalLevel (bd : Board) (s : State) (pin : Nat) : Option Bool :=
  (Signal.all.find? fun g => bd.pinMap.get g == pin).map (lineLevel bd s)

/-- The output of the event that led to a state (R15): the pulses, the lines and the status value. -/
structure Output where
  pulses : Pulses
  lines : NineLines Bool
  status : Option StatusWord
  deriving DecidableEq, Repr

def State.output (bd : Board) (s : State) : Output := ⟨s.pulses, s.lines bd, s.response⟩

end Sys2Proof.Machine
end

