-- ==== Sys2Proof/Machine/Timing.lean ====
section
/-! DEFINITION. Durations (spec/60_exceptions.md R149; spec/70_reset_and_hazards.md R173, R174). Time is the
count of ticks; no event depends on anything here. -/

namespace Sys2Proof.Machine

/-- One tick lasts `1 / TICK_HZ` seconds (R15, R143). -/
def tickPeriod (bd : Board) : Rat := 1 / bd.tickHz

/-- The advancing ticks a move of `n` steps at resolution `sp` takes (R89, R91, R149). -/
def moveTicks (div : PulseDiv) (n : Nat) (sp : Resolution) : Nat := n * div.get sp

/-- The advancing time of a move, in seconds (R149). -/
def moveSeconds (bd : Board) (div : PulseDiv) (n : Nat) (sp : Resolution) : Rat :=
  (moveTicks div n sp : Rat) * tickPeriod bd

/-- The pulses per second of a running side while it advances (R174). -/
def pulseRate (bd : Board) (div : PulseDiv) (sp : Resolution) : Rat := bd.tickHz / (div.get sp : Rat)

end Sys2Proof.Machine
end

