-- ==== Sys2Proof/Safety.lean ====
section
/-! DEFINITION. The terms claims about runs use: the invariants of spec/10_state.md R34 to R37, what the next
event is, the states of a run, and how pulses and advancing ticks are counted along it. -/

namespace Sys2Proof.Machine

/-- The invariants R34 to R37 of one side's record. -/
def Motor.Inv (div : PulseDiv) (m : Motor) : Prop :=
  (0 ≤ sext16 m.steps ∧ sext16 m.steps ≤ 32767) ∧
  (m.running = true → 1 ≤ sext16 m.steps) ∧
  (m.running = true → 0 ≤ sext16 m.phase ∧ sext16 m.phase < (div.get m.speed : Int)) ∧
  (m.running = true → m.dirOut = m.direction ∧ m.msOut = m.speed)

/-- The invariant of the machine: `PULSE_DIV` is legal (R9) and, once a `Reset` has completed, both records meet
R34 to R37. Before the first `Reset` the records hold any value (R162). -/
def State.Inv (s : State) : Prop :=
  s.pulseDiv.Legal ∧ (s.resetDone = true → ∀ side, (s.motor side).Inv s.pulseDiv)

/-- A state that admits commands and ticks: a `Reset` has completed (R162) and nothing has failed (R141). -/
def State.Ready (s : State) : Prop := s.faulted = false ∧ s.resetDone = true

/-- The next event of the schedule. -/
def State.nextEvent (s : State) : Option Event := s.upcoming.head?

/-- The command of an event, if it is a command word that is not reserved. -/
def Event.command : Event → Option Instr
  | .cmd w => (decode w).toOption
  | .reset => none
  | .setupFailed => none
  | .tick => none

/-- The command the next event is, if it is one. -/
def State.nextCommand (s : State) : Option Instr := s.nextEvent.bind Event.command

/-- The states after each of the next `k` steps, in order; a fault or a refusal ends the list. -/
def statesAfter : Nat → State → List State
  | 0, _ => []
  | k + 1, s =>
    match step s with
    | .next t => t :: statesAfter k t
    | .fault _ => []
    | .refused _ => []

/-- How many of the steps that led to these states emitted a pulse on a side. -/
def pulseCount (side : Side) (ts : List State) : Nat := ts.countP fun t => t.pulses.has side

/-- Whether the next step is a tick with the driver enabled and the gate open. -/
def State.gatedTick (s : State) : Bool := decide (s.nextEvent = some .tick) && s.gateOpen

/-- How many of the next `k` steps are such ticks. -/
def gatedTicks : Nat → State → Nat
  | 0, _ => 0
  | k + 1, s =>
    match step s with
    | .next t => (if s.gatedTick then 1 else 0) + gatedTicks k t
    | .fault _ => 0
    | .refused _ => 0

/-- Whether a command leaves `running` and `steps` of both sides as they are (R41), given whether some side runs:
every command but `ENABLE 0` and a `SET_STEPS` that the guard accepts. While a side runs the guard rejects every
`SET_STEPS` (R105, R112, R167), which then writes nothing. -/
def commandSparesMoves (busy : Bool) : Instr → Bool
  | .enable b => b
  | .setRunning _ => true
  | .setDirection _ _ => true
  | .setSteps _ _ => busy
  | .setSpeed _ _ => true
  | .status => true

/-- An event that leaves moves to the engine: a tick, or a command of that kind. -/
def Event.sparesMoves (busy : Bool) (e : Event) : Bool :=
  match e with
  | .tick => true
  | .cmd _ => (e.command.map (commandSparesMoves busy)).getD false
  | .reset => false
  | .setupFailed => false

/-- Whether the next step leaves moves to the engine (the premise of R89): its event does, or there is none. -/
def State.sparesMoves (s : State) : Bool := (s.nextEvent.map (Event.sparesMoves s.anyBusy)).getD true

/-- Whether the next event is a `SET_STEPS` that the guard accepts (R105): both sides are idle. -/
def State.takesSetSteps (s : State) : Prop :=
  (∃ l r, s.nextCommand = some (.setSteps l r)) ∧ s.left.running = false ∧ s.right.running = false

/-- The advancing ticks a side still runs (R89): what its `steps` and `phase` leave of its move. -/
def State.ticksLeft (s : State) (side : Side) : Int :=
  if (s.motor side).running then
    sext16 (s.motor side).steps * (s.pulseDiv.get (s.motor side).speed : Int) - sext16 (s.motor side).phase
  else 0

/-- The two sides move together (R90): they run alike, have the same count left and, while they run, are at the same
point of the same pulse period. -/
def State.Together (s : State) : Prop :=
  s.left.running = s.right.running ∧ s.left.steps = s.right.steps ∧
  (s.left.running = true →
    s.left.phase = s.right.phase ∧ s.pulseDiv.get s.left.speed = s.pulseDiv.get s.right.speed)

/-- The count `SET_STEPS left, right` gives a side (R110). -/
def countFor (left right : Int) : Side → Int
  | .left => left
  | .right => right

/-- The reserved words as R69 lists them: by opcode, or by a bit that the opcode's format requires to be 0. -/
def IsReserved (w : CmdWord) : Prop :=
  let op := w.toNat / 2 ^ 32
  op = 0 ∨ 7 ≤ op ∨
  ((op = 1 ∨ op = 2) ∧ ∃ k, 1 ≤ k ∧ k ≤ 31 ∧ w.getLsbD k = true) ∨
  (op = 3 ∧ ∃ k, k ≤ 31 ∧ k ≠ 0 ∧ k ≠ 8 ∧ w.getLsbD k = true) ∨
  (op = 5 ∧ ∃ k, k ≤ 31 ∧ k ≠ 0 ∧ k ≠ 1 ∧ k ≠ 8 ∧ w.getLsbD k = true) ∨
  (op = 6 ∧ ∃ k, k ≤ 31 ∧ w.getLsbD k = true)

end Sys2Proof.Machine
end

