-- ==== Sys2Proof/Certificates/Slice0/Obligations.lean ====
section
/-! DEFINITION. The statements for the provers. Each docstring names the rule of spec/ it formalises. -/

open Sys2Proof Sys2Proof.Machine

/-! ### Encoding -/

/-- R61 to R67: every well-formed command is read back from its word, with every operand at every value. -/
def Obligations.DecodeOfEncode : Prop :=
  ∀ i : Instr, i.WellFormed → decode (encode i) = .ok i

/-- R61 to R67: a word the decoder accepts is the word of the command it gives, and that command is well formed:
each word has at most one meaning and no bit of it is dropped. -/
def Obligations.EncodeOfDecode : Prop :=
  ∀ (w : CmdWord) (i : Instr), decode w = .ok i → i.WellFormed ∧ encode i = w

/-- R62: the rows of the opcode map (mnemonic, match, mask); a word is the command of a row exactly when
`w AND mask = match`; at most one row matches. -/
def Obligations.OpcodeMapIsExact : Prop :=
  (opcodeTable.map fun row => (row.mnemonic, row.pattern, row.mask)) =
    [ ("ENABLE", 0x0100000000#40, 0xFFFFFFFFFE#40),
      ("SET_RUNNING", 0x0200000000#40, 0xFFFFFFFFFE#40),
      ("SET_DIRECTION", 0x0300000000#40, 0xFFFFFFFEFE#40),
      ("SET_STEPS", 0x0400000000#40, 0xFF00000000#40),
      ("SET_SPEED", 0x0500000000#40, 0xFFFFFFFEFC#40),
      ("STATUS", 0x0600000000#40, 0xFFFFFFFFFF#40) ] ∧
  ∀ w : CmdWord,
    (∀ row ∈ opcodeTable,
      (row.matches w = true ↔ ∃ i, decode w = .ok i ∧ mnemonicOf i = row.mnemonic)) ∧
    (∀ i, decode w = .ok i → ∃ row ∈ opcodeTable, row.mnemonic = mnemonicOf i) ∧
    (∀ row₁ ∈ opcodeTable, ∀ row₂ ∈ opcodeTable,
      row₁.matches w = true → row₂.matches w = true → row₁ = row₂)

/-- R69: the reserved words are exactly those the rule lists (by opcode, or by a bit that must be 0); no row
matches one; the machine refuses one, in every state that admits a command. -/
def Obligations.ReservedWordsRefused : Prop :=
  ∀ w : CmdWord,
    (IsReserved w ↔ ∃ e, decode w = .error e) ∧
    (IsReserved w →
      (∀ row ∈ opcodeTable, row.matches w = false) ∧
      ∀ (s : State) (rest : List Event), s.Ready → s.upcoming = .cmd w :: rest →
        step s = .refused (.reservedWord w))

/-- R73 (which the spec derives from R61, R62, R64 to R66): the seventeen encoded examples. -/
def Obligations.EncodedExamples : Prop :=
  decode 0x0100000001#40 = .ok (.enable true) ∧
  decode 0x0100000000#40 = .ok (.enable false) ∧
  decode 0x0200000001#40 = .ok (.setRunning true) ∧
  decode 0x0200000000#40 = .ok (.setRunning false) ∧
  decode 0x0300000000#40 = .ok (.setDirection .left .forward) ∧
  decode 0x0300000001#40 = .ok (.setDirection .left .backward) ∧
  decode 0x0300000100#40 = .ok (.setDirection .right .forward) ∧
  decode 0x0300000101#40 = .ok (.setDirection .right .backward) ∧
  decode 0x0400C800C8#40 = .ok (.setSteps 200 200) ∧
  decode 0x0400640000#40 = .ok (.setSteps 100 0) ∧
  decode 0x04FFFB0003#40 = .ok (.setSteps (-5) 3) ∧
  decode 0x047FFF8000#40 = .ok (.setSteps 32767 (-32768)) ∧
  decode 0x0500000000#40 = .ok (.setSpeed .left .full) ∧
  decode 0x0500000001#40 = .ok (.setSpeed .left .half) ∧
  decode 0x0500000102#40 = .ok (.setSpeed .right .quarter) ∧
  decode 0x0500000103#40 = .ok (.setSpeed .right .eighth) ∧
  decode 0x0600000000#40 = .ok .status

/-- R71: the canonical text of a well-formed command assembles to that command. The printer `canonicalText` and
the treatment of blanks are the model's (log 13). -/
def Obligations.CanonicalTextAssembles : Prop :=
  ∀ i : Instr, i.WellFormed → assemble (canonicalText i) = some i

/-! ### Steps and events -/

/-- R15, R48: in a state that admits commands, the step of a command word that decodes to `i` is `exec i` at the
state in which the event has been taken from the schedule and the output of the event before it is over. The
schedule and the output fields are the model's (log 1, log 3). -/
def Obligations.StepRunsTheDecodedCommand : Prop :=
  ∀ (s : State) (w : CmdWord) (rest : List Event) (i : Instr),
    s.Ready → s.upcoming = .cmd w :: rest → decode w = .ok i →
    step s = exec i { s with upcoming := rest, pulses := ⟨false, false⟩, response := none }

/-- R51, R145: a step takes exactly the first event of the schedule; none is lost, merged or taken twice. The
parameter of R9 never changes, and only a `Reset` completes a reset. These fields are the model's (log 1, 4, 6). -/
def Obligations.StepTakesOneEvent : Prop :=
  ∀ s t : State, step s = .next t →
    t.upcoming = s.upcoming.tail ∧ t.pulseDiv = s.pulseDiv ∧
    t.resetDone = (s.resetDone || decide (s.nextEvent = some .reset))

/-- R18: with no event the block takes no step of its own. That such a step answers the state itself with no
output is the model's choice (log 2). -/
def Obligations.NoEventNoEffect : Prop :=
  ∀ s : State, s.faulted = false → s.upcoming = [] →
    step s = .next { s with pulses := ⟨false, false⟩, response := none }

/-- R140, R142: no command faults and none is refused, in any state; a tick always completes; the only fault of a
step is `SetupFailed` (R43, R141; that it is the step of a faulted state is log 8) and the only refusals are of a reserved
word (R69) and of an event before the first `Reset` (R162; the record of it is log 6). -/
def Obligations.NoRuntimeException : Prop :=
  (∀ (i : Instr) (s : State), ∃ t, exec i s = .next t) ∧
  (∀ (s : State) (rest : List Event), s.Ready → s.upcoming = .tick :: rest → ∃ t, step s = .next t) ∧
  (∀ (s : State) (f : Fault), step s = .fault f → f = .setupFailed ∧ s.faulted = true) ∧
  (∀ (s : State) (r : Refusal), step s = .refused r →
    (∃ w, r = .reservedWord w ∧ s.nextEvent = some (.cmd w) ∧ IsReserved w) ∨
    (r = .beforeReset ∧ s.resetDone = false))

/-- R43, R141: `faulted` is false after reset and at power-up, it is set by `SetupFailed` and by nothing else, and
a faulted state takes no further event, so it is never cleared. That `SetupFailed` may come in every state that is not
faulted, also after a `Reset`, and that every step of a faulted state is the fault are the model's inferences (log 7,
log 8). -/
def Obligations.SetupFailureHaltsTheBlock : Prop :=
  State.reset.faulted = false ∧
  (∀ en g l r div es, (State.powerUp en g l r div es).faulted = false) ∧
  (∀ (s : State) (rest : List Event), s.faulted = false → s.upcoming = .setupFailed :: rest →
    ∃ t, step s = .next t ∧ t.faulted = true) ∧
  (∀ s t : State, step s = .next t → t.faulted = true → s.nextEvent = some .setupFailed) ∧
  (∀ s : State, s.faulted = true → step s = .fault .setupFailed)

/-- R162: before the first completed `Reset` a command or a tick is refused, whatever the records hold, and the
reset source may complete a `Reset` or end in `SetupFailed`. -/
def Obligations.NothingBeforeTheFirstReset : Prop :=
  ∀ (en g : Bool) (l r : Motor) (div : PulseDiv) (rest : List Event),
    (∀ w, step (State.powerUp en g l r div (.cmd w :: rest)) = .refused .beforeReset) ∧
    step (State.powerUp en g l r div (.tick :: rest)) = .refused .beforeReset ∧
    step (State.powerUp en g l r div (.reset :: rest)) =
      .next { State.reset with pulseDiv := div, upcoming := rest } ∧
    ∃ t, step (State.powerUp en g l r div (.setupFailed :: rest)) = .next t ∧ t.faulted = true

/-- R42, R138, R160, R161: a `Reset` in any state that is not faulted, during a move or not, is one step that
writes every field to its reset value, emits no pulse, and drives the nine lines to the levels of R138. -/
def Obligations.ResetWritesEveryField : Prop :=
  ∀ (s : State) (rest : List Event), s.faulted = false → s.upcoming = .reset :: rest →
    ∃ t, step s = .next t ∧
      t.enable = false ∧ t.runGate = false ∧
      (∀ side, (t.motor side).running = false ∧ (t.motor side).direction = .forward ∧
        (t.motor side).speed = .full ∧ (t.motor side).steps = 0#16 ∧ (t.motor side).phase = 0#16 ∧
        (t.motor side).dirOut = .forward ∧ (t.motor side).msOut = .full) ∧
      (∀ side, t.pulses.has side = false) ∧
      ∀ bd : Board,
        lineLevel bd t .en = !bd.enLevel ∧
        ∀ side, lineLevel bd t (.step side) = false ∧
          lineLevel bd t (.dir side) = bd.dirLevel side .forward ∧
          lineLevel bd t (.ms1 side) = (bd.msPinCode.get .full).getLsbD 0 ∧
          lineLevel bd t (.ms2 side) = (bd.msPinCode.get .full).getLsbD 1

/-! ### Global control -/

/-- R95: the effect of `ENABLE b` in every state, its words, and the EN line. -/
def Obligations.EnableCommand : Prop :=
  ∀ (b : Bool) (s : State), ∃ t, exec (.enable b) s = .next t ∧
    t.enable = b ∧ t.runGate = s.runGate ∧
    (∀ side, t.motor side =
      { s.motor side with running := if b then (s.motor side).running else false }) ∧
    (∀ bd : Board, lineLevel bd t .en = if b then bd.enLevel else !bd.enLevel) ∧
    encode (.enable b) = if b then 0x0100000001#40 else 0x0100000000#40

/-- R99: the effect of `SET_RUNNING b` in every state, and its words. -/
def Obligations.SetRunningCommand : Prop :=
  ∀ (b : Bool) (s : State), ∃ t, exec (.setRunning b) s = .next t ∧
    t.runGate = b ∧ t.enable = s.enable ∧ (∀ side, t.motor side = s.motor side) ∧
    encode (.setRunning b) = if b then 0x0200000001#40 else 0x0200000000#40

/-- R95, R99, R104 (frame of `ENABLE` and `SET_RUNNING`): what they leave unchanged. Neither emits a pulse or gives a
response. -/
def Obligations.GlobalControlFrame : Prop :=
  ∀ (b : Bool) (s t : State),
    (exec (.enable b) s = .next t →
      t.runGate = s.runGate ∧
      (∀ side, (t.motor side).direction = (s.motor side).direction ∧
        (t.motor side).speed = (s.motor side).speed ∧ (t.motor side).steps = (s.motor side).steps ∧
        (t.motor side).phase = (s.motor side).phase ∧ (t.motor side).dirOut = (s.motor side).dirOut ∧
        (t.motor side).msOut = (s.motor side).msOut ∧
        (b = true → (t.motor side).running = (s.motor side).running)) ∧
      t.faulted = s.faulted ∧ t.resetDone = s.resetDone ∧ t.pulseDiv = s.pulseDiv ∧
      t.upcoming = s.upcoming ∧ t.pulses = s.pulses ∧ t.response = s.response) ∧
    (exec (.setRunning b) s = .next t →
      t.enable = s.enable ∧ (∀ side, t.motor side = s.motor side) ∧
      t.faulted = s.faulted ∧ t.resetDone = s.resetDone ∧ t.pulseDiv = s.pulseDiv ∧
      t.upcoming = s.upcoming ∧ t.pulses = s.pulses ∧ t.response = s.response)

/-! ### Motion set-up -/

/-- R106: `SET_DIRECTION` in every state: rejected while the side runs, else it writes `direction` of that side and
nothing of the other; and its word. -/
def Obligations.SetDirectionCommand : Prop :=
  ∀ (side : Side) (d : Direction) (s : State),
    ((s.motor side).running = true → exec (.setDirection side d) s = .next s) ∧
    ((s.motor side).running = false →
      ∃ t, exec (.setDirection side d) s = .next t ∧
        t.motor side = { s.motor side with direction := d } ∧
        t.motor side.other = s.motor side.other ∧ t.enable = s.enable ∧ t.runGate = s.runGate) ∧
    encode (.setDirection side d) =
      0x0300000000#40 ||| (if side = .right then 0x100#40 else 0#40)
        ||| (if d = .backward then 1#40 else 0#40)

/-- R108: `SET_SPEED` in every state: rejected while the side runs, else it writes `speed` of that side and nothing of
the other; and its word. -/
def Obligations.SetSpeedCommand : Prop :=
  ∀ (side : Side) (p : Resolution) (s : State),
    ((s.motor side).running = true → exec (.setSpeed side p) s = .next s) ∧
    ((s.motor side).running = false →
      ∃ t, exec (.setSpeed side p) s = .next t ∧
        t.motor side = { s.motor side with speed := p } ∧
        t.motor side.other = s.motor side.other ∧ t.enable = s.enable ∧ t.runGate = s.runGate) ∧
    encode (.setSpeed side p) =
      0x0500000000#40 ||| (if side = .right then 0x100#40 else 0#40)
        ||| (match p with
             | .full => 0#40
             | .half => 1#40
             | .quarter => 2#40
             | .eighth => 3#40)

/-- R110: `SET_STEPS` with every pair of counts: rejected whole while either side runs; else each side with a positive
count is armed and each other side stores 0 and keeps the rest of its record; and the word. -/
def Obligations.SetStepsCommand : Prop :=
  ∀ (left right : Int) (s : State), (Instr.setSteps left right).WellFormed →
    ((s.left.running = true ∨ s.right.running = true) → exec (.setSteps left right) s = .next s) ∧
    (s.left.running = false → s.right.running = false →
      ∃ t, exec (.setSteps left right) s = .next t ∧
        t.enable = s.enable ∧ t.runGate = s.runGate ∧
        ∀ side,
          (0 < countFor left right side →
            sext16 (t.motor side).steps = countFor left right side ∧
            (t.motor side).running = true ∧ (t.motor side).phase = 0#16 ∧
            (t.motor side).dirOut = (s.motor side).direction ∧
            (t.motor side).msOut = (s.motor side).speed ∧
            (t.motor side).direction = (s.motor side).direction ∧
            (t.motor side).speed = (s.motor side).speed) ∧
          (countFor left right side ≤ 0 → t.motor side = { s.motor side with steps := 0#16 })) ∧
    encode (.setSteps left right) =
      0x04#8 ++ BitVec.ofInt 16 left ++ BitVec.ofInt 16 right

/-- R105: a guarded command whose guard holds is a step that writes no state, changes no line and returns nothing; the
guard reads the `running` flags alone, so with them clear the command takes effect whatever `ENABLE` and `RUN_GATE`
are. The model's own fields move on as for every event (log 1, log 3). -/
def Obligations.GuardRejectsWithNoEffect : Prop :=
  ∀ (s : State) (w : CmdWord) (rest : List Event) (i : Instr),
    s.Ready → s.upcoming = .cmd w :: rest → decode w = .ok i →
    ((∃ side d, i = .setDirection side d ∧ (s.motor side).running = true) ∨
     (∃ side p, i = .setSpeed side p ∧ (s.motor side).running = true) ∨
     (∃ l r, i = .setSteps l r ∧ (s.left.running = true ∨ s.right.running = true)) →
      ∃ t, step s = .next t ∧ t.enable = s.enable ∧ t.runGate = s.runGate ∧ t.left = s.left ∧
        t.right = s.right ∧ t.response = none ∧ (∀ side, t.pulses.has side = false) ∧
        ∀ (bd : Board) (g : Signal), lineLevel bd t g = lineLevel bd s g) ∧
    (∀ side d, i = .setDirection side d → (s.motor side).running = false →
      ∃ t, step s = .next t ∧ (t.motor side).direction = d) ∧
    (∀ side p, i = .setSpeed side p → (s.motor side).running = false →
      ∃ t, step s = .next t ∧ (t.motor side).speed = p) ∧
    (∀ l r, i = .setSteps l r → s.left.running = false → s.right.running = false →
      ∃ t, step s = .next t ∧ ∀ side,
        sext16 (t.motor side).steps = if 0 < countFor l r side then countFor l r side else 0)

/-- R107, R109, R114 (frame of the set-up commands): `SET_DIRECTION` and `SET_SPEED` write one field of one record and
no latch; `SET_STEPS` writes no flag but `running`, no `direction` and no `speed`, and a latch only of a side it arms,
with the record's value. None emits a pulse or gives a response. -/
def Obligations.MotionSetupFrame : Prop :=
  ∀ (s t : State),
    (∀ side d, exec (.setDirection side d) s = .next t →
      t.enable = s.enable ∧ t.runGate = s.runGate ∧
      t.motor side = { s.motor side with direction := (t.motor side).direction } ∧
      t.motor side.other = s.motor side.other ∧
      t.faulted = s.faulted ∧ t.resetDone = s.resetDone ∧ t.pulseDiv = s.pulseDiv ∧
      t.upcoming = s.upcoming ∧ t.pulses = s.pulses ∧ t.response = s.response) ∧
    (∀ side p, exec (.setSpeed side p) s = .next t →
      t.enable = s.enable ∧ t.runGate = s.runGate ∧
      t.motor side = { s.motor side with speed := (t.motor side).speed } ∧
      t.motor side.other = s.motor side.other ∧
      t.faulted = s.faulted ∧ t.resetDone = s.resetDone ∧ t.pulseDiv = s.pulseDiv ∧
      t.upcoming = s.upcoming ∧ t.pulses = s.pulses ∧ t.response = s.response) ∧
    (∀ l r, exec (.setSteps l r) s = .next t →
      t.enable = s.enable ∧ t.runGate = s.runGate ∧
      (∀ side, (t.motor side).direction = (s.motor side).direction ∧
        (t.motor side).speed = (s.motor side).speed ∧
        (countFor l r side ≤ 0 → (t.motor side).running = (s.motor side).running ∧
          (t.motor side).phase = (s.motor side).phase ∧
          (t.motor side).dirOut = (s.motor side).dirOut ∧
          (t.motor side).msOut = (s.motor side).msOut) ∧
        ((t.motor side).dirOut ≠ (s.motor side).dirOut →
          0 < countFor l r side ∧ (t.motor side).dirOut = (s.motor side).direction) ∧
        ((t.motor side).msOut ≠ (s.motor side).msOut →
          0 < countFor l r side ∧ (t.motor side).msOut = (s.motor side).speed)) ∧
      t.faulted = s.faulted ∧ t.resetDone = s.resetDone ∧ t.pulseDiv = s.pulseDiv ∧
      t.upcoming = s.upcoming ∧ t.pulses = s.pulses ∧ t.response = s.response)

/-- R57: a second copy of `ENABLE`, `SET_RUNNING`, `SET_DIRECTION` or `SET_SPEED` changes nothing; after a `SET_STEPS`
that armed a side, every `SET_STEPS` is rejected (R112). The spec marks R57 and R112 as derived, from R95, R99, R105,
R106, R108 and R110. -/
def Obligations.RepeatedCommands : Prop :=
  (∀ (i : Instr) (s t : State), (∀ l r, i ≠ .setSteps l r) → exec i s = .next t → exec i t = .next t) ∧
  (∀ (l r l' r' : Int) (s t : State), s.left.running = false → s.right.running = false →
    (0 < l ∨ 0 < r) → exec (.setSteps l r) s = .next t → exec (.setSteps l' r') t = .next t)

/-! ### Status -/

/-- R120, R121: `STATUS` in every state: the response, bit by bit, and nothing else written; its word; and in a state
that meets the invariant the reported counts are in 0..32767. -/
def Obligations.StatusCommand : Prop :=
  ∀ s : State, ∃ (t : State) (r : StatusWord), exec .status s = .next t ∧ t.response = some r ∧
    { t with response := s.response } = s ∧
    r.extractLsb' 0 16 = s.left.steps ∧
    r.getLsbD 16 = s.left.running ∧
    (r.getLsbD 17 = true ↔ s.left.direction = .backward) ∧
    ((r.extractLsb' 18 2).toNat = match s.left.speed with
      | .full => 0 | .half => 1 | .quarter => 2 | .eighth => 3) ∧
    r.getLsbD 20 = s.enable ∧
    r.extractLsb' 21 11 = 0#11 ∧
    r.extractLsb' 32 16 = s.right.steps ∧
    r.getLsbD 48 = s.right.running ∧
    (r.getLsbD 49 = true ↔ s.right.direction = .backward) ∧
    ((r.extractLsb' 50 2).toNat = match s.right.speed with
      | .full => 0 | .half => 1 | .quarter => 2 | .eighth => 3) ∧
    r.getLsbD 52 = s.enable ∧
    r.extractLsb' 53 3 = 0#3 ∧
    r.getLsbD 56 = s.runGate ∧
    r.extractLsb' 57 7 = 0#7 ∧
    (s.Ready → s.Inv →
      0 ≤ sext16 (r.extractLsb' 0 16) ∧ sext16 (r.extractLsb' 0 16) ≤ 32767 ∧
      0 ≤ sext16 (r.extractLsb' 32 16) ∧ sext16 (r.extractLsb' 32 16) ≤ 32767) ∧
    encode .status = 0x0600000000#40

/-- R120 (frame of `STATUS`): everything but the response is unchanged, and so is every line. -/
def Obligations.StatusFrame : Prop :=
  ∀ s t : State, exec .status s = .next t →
    t.enable = s.enable ∧ t.runGate = s.runGate ∧ (∀ side, t.motor side = s.motor side) ∧
    t.faulted = s.faulted ∧ t.resetDone = s.resetDone ∧ t.pulseDiv = s.pulseDiv ∧
    t.upcoming = s.upcoming ∧ t.pulses = s.pulses ∧
    ∀ (bd : Board) (g : Signal), lineLevel bd t g = lineLevel bd s g

/-- R123, R125, R35: what a host can rely on in a response of a reachable state: a half that says running says at least
one step left, the two enabled bits are equal, a second read gives the same value, and neither `phase` nor a latch is
reported: two states that differ in those alone give the same response. The spec marks R125 and R35 as derived. -/
def Obligations.StatusIsConsistent : Prop :=
  (∀ (s t : State) (r : StatusWord), s.Ready → s.Inv → exec .status s = .next t → t.response = some r →
    (r.getLsbD 16 = true → 1 ≤ (r.extractLsb' 0 16).toInt) ∧
    (r.getLsbD 48 = true → 1 ≤ (r.extractLsb' 32 16).toInt) ∧
    r.getLsbD 20 = r.getLsbD 52 ∧
    ∃ u, exec .status t = .next u ∧ u.response = some r) ∧
  (∀ (s t s' t' : State),
    (s'.enable = s.enable ∧ s'.runGate = s.runGate ∧
      ∀ side, s'.motor side = { s.motor side with
        phase := (s'.motor side).phase, dirOut := (s'.motor side).dirOut, msOut := (s'.motor side).msOut }) →
    exec .status s = .next t → exec .status s' = .next t' → t'.response = t.response)

/-! ### The engine -/

/-- R81: at a tick a side is advanced exactly when `ENABLE`, `RUN_GATE` and its `running` are 1; a side that is not
keeps its record, its latches and its lines and emits no pulse; a side that is changes. -/
def Obligations.TickAdvancesExactly : Prop :=
  ∀ (s : State) (rest : List Event), s.Ready → s.upcoming = .tick :: rest →
    ∃ t, step s = .next t ∧ ∀ side,
      (¬(s.enable = true ∧ s.runGate = true ∧ (s.motor side).running = true) →
        t.motor side = s.motor side ∧ t.pulses.has side = false ∧
        ∀ bd : Board, lineLevel bd t (.dir side) = lineLevel bd s (.dir side) ∧
          lineLevel bd t (.ms1 side) = lineLevel bd s (.ms1 side) ∧
          lineLevel bd t (.ms2 side) = lineLevel bd s (.ms2 side)) ∧
      (s.enable = true ∧ s.runGate = true ∧ (s.motor side).running = true →
        t.motor side ≠ s.motor side)

/-- R82 to R85: what a tick does to a side it advances, in every state and for every `PULSE_DIV`: a phase step, or on a
pulse tick a pulse (with `running` cleared by the last one), or a stop without a pulse where no step is left. In a state
that meets the invariant a step is left, the latch writes change nothing, and at the default `PULSE_DIV` every advanced
tick is a pulse tick. -/
def Obligations.TickOnAdvancedSide : Prop :=
  ∀ (s : State) (rest : List Event) (side : Side), s.Ready → s.upcoming = .tick :: rest →
    s.enable = true → s.runGate = true → (s.motor side).running = true →
    ∃ t, step s = .next t ∧
      let m := s.motor side
      let phase := m.phase + 1#16
      (sext16 phase < (s.pulseDiv.get m.speed : Int) →
        t.motor side = { m with phase := phase } ∧ t.pulses.has side = false) ∧
      ((s.pulseDiv.get m.speed : Int) ≤ sext16 phase → 0 < sext16 m.steps →
        t.pulses.has side = true ∧
        t.motor side =
          { m with phase := 0#16, msOut := m.speed, dirOut := m.direction, steps := m.steps - 1#16,
                   running := decide (m.steps - 1#16 ≠ 0#16) }) ∧
      ((s.pulseDiv.get m.speed : Int) ≤ sext16 phase → sext16 m.steps ≤ 0 →
        t.pulses.has side = false ∧ t.motor side = { m with phase := 0#16, running := false }) ∧
      (s.Inv → 0 < sext16 m.steps ∧ (t.motor side).dirOut = m.dirOut ∧ (t.motor side).msOut = m.msOut ∧
        (s.pulseDiv = ⟨1, 1, 1, 1⟩ → t.pulses.has side = true))

/-- R87: the result does not depend on the service order, and what a tick does for one side reads nothing of the other
side's record. -/
def Obligations.TickSidesAreIndependent : Prop :=
  (∀ s : State, (s.engineSide .left).engineSide .right = (s.engineSide .right).engineSide .left) ∧
  (∀ (s₁ s₂ : State) (side : Side), s₁.enable = s₂.enable → s₁.runGate = s₂.runGate →
    s₁.pulseDiv = s₂.pulseDiv → s₁.motor side = s₂.motor side →
    s₁.pulses.has side = s₂.pulses.has side →
    s₁.tick.motor side = s₂.tick.motor side ∧ s₁.tick.pulses.has side = s₂.tick.pulses.has side)

/-- R86 (frame of a tick): `ENABLE`, `RUN_GATE`, `direction`, `speed` and everything the model carries but the
schedule and the output are unchanged; a tick never sets `running`, never raises `steps` and gives no response. -/
def Obligations.TickFrame : Prop :=
  ∀ (s t : State), s.nextEvent = some .tick → step s = .next t →
    t.enable = s.enable ∧ t.runGate = s.runGate ∧ t.faulted = s.faulted ∧ t.resetDone = s.resetDone ∧
    t.pulseDiv = s.pulseDiv ∧ t.response = none ∧
    ∀ side, (t.motor side).direction = (s.motor side).direction ∧
      (t.motor side).speed = (s.motor side).speed ∧
      ((t.motor side).running = true → (s.motor side).running = true) ∧
      ((t.motor side).steps ≠ (s.motor side).steps →
        sext16 (t.motor side).steps = sext16 (s.motor side).steps - 1 ∧ t.pulses.has side = true)

/-- R92, R93, R94: a tick at which no side is advanced (the gate closed, the driver disabled, or both sides idle)
changes no state and no line and emits no pulse. The spec marks the three rules as derived, from R81 and R86. -/
def Obligations.IdleTickChangesNothing : Prop :=
  ∀ (s : State) (rest : List Event), s.Ready → s.upcoming = .tick :: rest →
    (s.runGate = false ∨ s.enable = false ∨ (s.left.running = false ∧ s.right.running = false)) →
    ∃ t, step s = .next t ∧
      t = { s with upcoming := rest, pulses := ⟨false, false⟩, response := none } ∧
      ∀ (bd : Board) (g : Signal), lineLevel bd t g = lineLevel bd s g

/-! ### Invariants -/

/-- R34 to R37, R42: the invariant holds right after reset, with any legal `PULSE_DIV` and any schedule, and at
power-up with any records. -/
def Obligations.InvariantHoldsAtReset : Prop :=
  State.reset.Inv ∧
  (∀ (div : PulseDiv) (es : List Event), div.Legal →
    { State.reset with pulseDiv := div, upcoming := es }.Inv) ∧
  (∀ en g l r (div : PulseDiv) es, div.Legal → (State.powerUp en g l r div es).Inv)

/-- R34 to R37 (invariants the spec marks as derived): every step keeps the invariant, from every state that meets it. -/
def Obligations.StepKeepsInvariant : Prop :=
  ∀ s t : State, s.Inv → step s = .next t → t.Inv

/-- R34, R35, R36, R37: in every state reached, by any schedule of events, after a completed `Reset`, for every legal
`PULSE_DIV`. The spec marks the four invariants as derived. -/
def Obligations.ReachableStatesMeetInvariants : Prop :=
  ∀ (en g : Bool) (l r : Motor) (div : PulseDiv) (es : List Event) (k : Nat) (t : State),
    div.Legal → Host.Core.run Sys2Proof.core k (State.powerUp en g l r div es) = .next t →
    t.resetDone = true → ∀ side,
      (0 ≤ sext16 (t.motor side).steps ∧ sext16 (t.motor side).steps ≤ 32767) ∧
      ((t.motor side).running = true → 1 ≤ sext16 (t.motor side).steps) ∧
      ((t.motor side).running = true →
        0 ≤ sext16 (t.motor side).phase ∧
        sext16 (t.motor side).phase < (div.get (t.motor side).speed : Int)) ∧
      ((t.motor side).running = true →
        (t.motor side).dirOut = (t.motor side).direction ∧ (t.motor side).msOut = (t.motor side).speed)

/-- R40: with the default `PULSE_DIV`, both phase counters are 0 between every two events: so right after reset, and
every step keeps it. -/
def Obligations.DefaultPhaseStaysZero : Prop :=
  (∀ side, (State.reset.motor side).phase = 0#16) ∧
  ∀ s t : State, s.pulseDiv = ⟨1, 1, 1, 1⟩ → (∀ side, (s.motor side).phase = 0#16) → step s = .next t →
    ∀ side, (t.motor side).phase = 0#16

/-- R38 (which the spec derives from R105): while a side runs, no command and no tick changes its `direction` or `speed`. That a `Reset`, which ends the
move (R160, R161), is not meant by R38 is the model's reading (log 14). -/
def Obligations.RunningSideKeepsItsSetup : Prop :=
  ∀ (s t : State) (side : Side), (s.motor side).running = true → step s = .next t →
    s.nextEvent ≠ some .reset →
    (t.motor side).direction = (s.motor side).direction ∧ (t.motor side).speed = (s.motor side).speed

/-- R41, R23 to R31: who writes each field, over all steps. -/
def Obligations.FieldWriters : Prop :=
  ∀ s t : State, step s = .next t → s.nextEvent ≠ some .reset →
    (t.enable ≠ s.enable → ∃ b, s.nextCommand = some (.enable b)) ∧
    (t.runGate ≠ s.runGate → ∃ b, s.nextCommand = some (.setRunning b)) ∧
    ∀ side,
      ((t.motor side).direction ≠ (s.motor side).direction →
        ∃ d, s.nextCommand = some (.setDirection side d) ∧ (s.motor side).running = false) ∧
      ((t.motor side).speed ≠ (s.motor side).speed →
        ∃ p, s.nextCommand = some (.setSpeed side p) ∧ (s.motor side).running = false) ∧
      ((s.motor side).running = false → (t.motor side).running = true →
        ∃ l r, s.nextCommand = some (.setSteps l r) ∧ 0 < countFor l r side ∧
          s.left.running = false ∧ s.right.running = false) ∧
      ((s.motor side).running = true → (t.motor side).running = false →
        s.nextEvent = some .tick ∨ s.nextCommand = some (.enable false)) ∧
      ((t.motor side).steps ≠ (s.motor side).steps →
        (s.nextEvent = some .tick ∧ t.pulses.has side = true) ∨
        ∃ l r, s.nextCommand = some (.setSteps l r) ∧ s.left.running = false ∧ s.right.running = false) ∧
      ((t.motor side).phase ≠ (s.motor side).phase →
        s.nextEvent = some .tick ∨
        ∃ l r, s.nextCommand = some (.setSteps l r) ∧ 0 < countFor l r side) ∧
      ((t.motor side).dirOut ≠ (s.motor side).dirOut ∨ (t.motor side).msOut ≠ (s.motor side).msOut →
        (s.nextEvent = some .tick ∧ t.pulses.has side = true) ∨
        ∃ l r, s.nextCommand = some (.setSteps l r) ∧ 0 < countFor l r side ∧
          s.left.running = false ∧ s.right.running = false)

/-! ### Output lines -/

/-- R128 to R131: the levels of the lines in every state, for every board, and that the two DIR levels of a side differ
(R9, as log 5 holds them); with the default `MS_PIN_CODE` the MS lines
drive (MS2, MS1) = (0,0), (0,1), (1,0), (1,1) for FULL, HALF, QUARTER, EIGHTH. -/
def Obligations.LineLevels : Prop :=
  ∀ (bd : Board) (s : State),
    lineLevel bd s .en = (if s.enable then bd.enLevel else !bd.enLevel) ∧
    ∀ side, lineLevel bd s (.step side) = false ∧
      lineLevel bd s (.dir side) = bd.dirLevel side (s.motor side).dirOut ∧
      bd.dirLevel side .forward ≠ bd.dirLevel side .backward ∧
      lineLevel bd s (.ms1 side) = (bd.msPinCode.get (s.motor side).msOut).getLsbD 0 ∧
      lineLevel bd s (.ms2 side) = (bd.msPinCode.get (s.motor side).msOut).getLsbD 1 ∧
      (bd.msPinCode = msPinCodeDefault →
        (lineLevel bd s (.ms2 side), lineLevel bd s (.ms1 side)) =
          match (s.motor side).msOut with
          | .full => (false, false)
          | .half => (false, true)
          | .quarter => (true, false)
          | .eighth => (true, true))

/-- R132: the writers of each line, over all steps: `EN` by `Reset` and `ENABLE`; `STEP_s` by the tick; `DIR_s` and the
MS lines by `Reset`, by a `SET_STEPS` that arms the side, and by the engine on a pulse tick of the side. -/
def Obligations.LineWriters : Prop :=
  ∀ (bd : Board) (s t : State), step s = .next t →
    (lineLevel bd t .en ≠ lineLevel bd s .en →
      s.nextEvent = some .reset ∨ ∃ b, s.nextCommand = some (.enable b)) ∧
    ∀ side,
      (t.pulses.has side = true → s.nextEvent = some .tick) ∧
      (∀ g : Signal, (g = .dir side ∨ g = .ms1 side ∨ g = .ms2 side) →
        lineLevel bd t g ≠ lineLevel bd s g →
        s.nextEvent = some .reset ∨
        (s.nextEvent = some .tick ∧ t.pulses.has side = true) ∨
        ∃ l r, s.nextCommand = some (.setSteps l r) ∧ 0 < countFor l r side ∧
          s.left.running = false ∧ s.right.running = false)

/-- R133: on a legal board each signal is seen on its physical line, and on no other. -/
def Obligations.PhysicalLines : Prop :=
  ∀ (bd : Board) (s : State), bd.Legal →
    (∀ g : Signal, physicalLevel bd s (bd.pinMap.get g) = some (lineLevel bd s g)) ∧
    ∀ pin : Nat, (∀ g : Signal, bd.pinMap.get g ≠ pin) → physicalLevel bd s pin = none

/-- R134: a step pulse is emitted only at a tick, while `ENABLE` and `RUN_GATE` are 1, by a running side with a step
left, and the driver is still powered after it. The spec marks R134 as derived, from R131 and R81. -/
def Obligations.PulseReachesPoweredDriver : Prop :=
  ∀ (s t : State) (side : Side), step s = .next t → t.pulses.has side = true →
    s.nextEvent = some .tick ∧ s.enable = true ∧ s.runGate = true ∧
    (s.motor side).running = true ∧ 0 < sext16 (s.motor side).steps ∧ t.enable = true

/-- R135: while a side runs, its DIR and MS lines hold the levels of its `direction` and `speed`, and no event but a
`Reset` changes them (log 14 for the `Reset`). The spec marks R135 as derived, from R129, R130, R37 and R38. -/
def Obligations.RunningSideHoldsItsLines : Prop :=
  ∀ (bd : Board) (s : State) (side : Side), s.Ready → s.Inv → (s.motor side).running = true →
    lineLevel bd s (.dir side) = bd.dirLevel side (s.motor side).direction ∧
    lineLevel bd s (.ms1 side) = (bd.msPinCode.get (s.motor side).speed).getLsbD 0 ∧
    lineLevel bd s (.ms2 side) = (bd.msPinCode.get (s.motor side).speed).getLsbD 1 ∧
    ∀ t, step s = .next t → s.nextEvent ≠ some .reset →
      ∀ g : Signal, (g = .dir side ∨ g = .ms1 side ∨ g = .ms2 side) →
        lineLevel bd t g = lineLevel bd s g

/-! ### Runs -/

/-- R89: a `SET_STEPS` that arms a side with `n ≥ 1`, followed by any events that write neither `running` nor `steps`:
ticks and every command but `ENABLE 0` and a `SET_STEPS` that the guard accepts; one that it rejects (R105, R112) is
among them. After `k` of them, of which `a` were ticks with `ENABLE = 1` and `RUN_GATE = 1`, the side has emitted exactly
`min n (a / PULSE_DIV(speed))` pulses (so the `j`-th pulse comes at the `(j * PULSE_DIV)`-th such tick), each with the
lines at the side's `direction` and `speed`, and it runs exactly while `a < n * PULSE_DIV`. The spec marks R89 as
derived, from R81 to R84 and R110. -/
def Obligations.MoveEmitsExactlyItsPulses : Prop :=
  ∀ (s₀ : State) (w : CmdWord) (es : List Event) (left right : Int) (side : Side) (n k : Nat),
    s₀.Ready → s₀.Inv → s₀.left.running = false → s₀.right.running = false →
    s₀.upcoming = .cmd w :: es → decode w = .ok (.setSteps left right) →
    countFor left right side = (n : Int) → 1 ≤ n →
    (∀ u ∈ (statesAfter (k + 1) s₀).take k, u.sparesMoves = true) →
    ∃ s, step s₀ = .next s ∧
      let div := s.pulseDiv.get (s.motor side).speed
      let ts := statesAfter k s
      let a := gatedTicks k s
      ts.length = k ∧
      pulseCount side ts = min n (a / div) ∧
      (∀ t ∈ ts, t.pulses.has side = true →
        (t.motor side).dirOut = (s₀.motor side).direction ∧
        (t.motor side).msOut = (s₀.motor side).speed) ∧
      ∀ t, (s :: ts).getLast? = some t →
        ((t.motor side).running = true ↔ a < n * div) ∧
        sext16 (t.motor side).steps = (n : Int) - ((min n (a / div) : Nat) : Int)

/-- R90: two sides armed by one `SET_STEPS` with equal counts, at equal `PULSE_DIV`, pulse on the same ticks and stop on
the same tick, whatever events follow, up to the next `SET_STEPS` that the guard accepts; one that it rejects (R105, R167)
changes nothing. The spec marks R90 as derived, from R81, R82, R89 and R49. -/
def Obligations.CoordinatedStop : Prop :=
  ∀ (s₀ : State) (w : CmdWord) (es : List Event) (n : Int) (k : Nat),
    s₀.Ready → s₀.Inv → s₀.left.running = false → s₀.right.running = false →
    s₀.pulseDiv.get s₀.left.speed = s₀.pulseDiv.get s₀.right.speed →
    s₀.upcoming = .cmd w :: es → decode w = .ok (.setSteps n n) → 1 ≤ n →
    (∀ u ∈ (statesAfter (k + 1) s₀).take k, ¬ u.takesSetSteps) →
    ∀ t ∈ statesAfter (k + 1) s₀,
      t.left.running = t.right.running ∧ t.left.steps = t.right.steps ∧ t.pulses.left = t.pulses.right

/-- R101, R102: `SET_RUNNING 0`, then any ticks and `STATUS` commands, then `SET_RUNNING 1`: both records, `ENABLE`
included, are as they were before the pause, the gate is open, and no pulse was emitted meanwhile. The spec marks both
rules as derived, from R99, R92, R53 and R105. -/
def Obligations.PauseAndResume : Prop :=
  ∀ (s : State) (w₀ w₁ : CmdWord) (es rest : List Event), s.Ready →
    s.upcoming = .cmd w₀ :: (es ++ .cmd w₁ :: rest) →
    decode w₀ = .ok (.setRunning false) → decode w₁ = .ok (.setRunning true) →
    (∀ e ∈ es, e = .tick ∨ e.command = some .status) →
    (∀ t ∈ statesAfter (es.length + 2) s, ∀ side, t.pulses.has side = false) ∧
    ∃ t, Host.Core.run Sys2Proof.core (es.length + 2) s = .next t ∧
      (∀ side, t.motor side = s.motor side) ∧ t.enable = s.enable ∧ t.runGate = true

/-- R97, R98: after `ENABLE 0` both sides are idle with their remaining counts, and whatever ticks and commands but
`SET_STEPS` follow, no pulse is emitted, no side runs and the counts stay. The spec marks both rules as derived, from
R95, R99, R81 and R110. -/
def Obligations.DisablingAbandonsTheMove : Prop :=
  ∀ (s : State) (w : CmdWord) (es : List Event) (k : Nat), s.Ready →
    s.upcoming = .cmd w :: es → decode w = .ok (.enable false) →
    (∀ e ∈ es.take k, e = .tick ∨ ∃ i, e.command = some i ∧ ∀ l r, i ≠ .setSteps l r) →
    (statesAfter (k + 1) s).length = k + 1 ∧
    ∀ t ∈ statesAfter (k + 1) s, ∀ side,
      t.pulses.has side = false ∧ (t.motor side).running = false ∧
      (t.motor side).steps = (s.motor side).steps

/-- R89, R91, R149, R174: how long a move of the machine takes. After a `SET_STEPS` that arms a side with `n ≥ 1`, and any
events that write neither `running` nor `steps` (as in `MoveEmitsExactlyItsPulses`), of which `a` were ticks with
`ENABLE = 1` and `RUN_GATE = 1`: the side runs exactly while `a` is below `moveTicks`, that is while the advancing time
`a / TICK_HZ` is below `moveSeconds`, and while it runs its pulses are the whole part of that time at `pulseRate`. The tick
count is the same at every resolution exactly when `PULSE_DIV` is; at the default it is `n` ticks, `n / TICK_HZ` seconds, at
`TICK_HZ` pulses a second. Time as exact rationals is the model's choice (log 12). The spec marks R89, R91 and R174 as
derived. -/
def Obligations.MoveDuration : Prop :=
  (∀ (bd : Board) (s₀ : State) (w : CmdWord) (es : List Event) (left right : Int) (side : Side) (n k : Nat),
    s₀.Ready → s₀.Inv → s₀.left.running = false → s₀.right.running = false →
    s₀.upcoming = .cmd w :: es → decode w = .ok (.setSteps left right) →
    countFor left right side = (n : Int) → 1 ≤ n → 0 < bd.tickHz →
    (∀ u ∈ (statesAfter (k + 1) s₀).take k, u.sparesMoves = true) →
    ∃ s, step s₀ = .next s ∧
      let sp := (s₀.motor side).speed
      let a := gatedTicks k s
      let elapsed := (a : Rat) * tickPeriod bd
      ∀ t, (s :: statesAfter k s).getLast? = some t →
        ((t.motor side).running = true ↔ a < moveTicks s₀.pulseDiv n sp) ∧
        ((t.motor side).running = true ↔ elapsed < moveSeconds bd s₀.pulseDiv n sp) ∧
        ((t.motor side).running = true →
          (pulseCount side (statesAfter k s) : Int) = (elapsed * pulseRate bd s₀.pulseDiv sp).floor)) ∧
  (∀ (bd : Board) (div : PulseDiv) (n : Nat) (sp : Resolution),
    moveSeconds bd div n sp = (n : Rat) * (div.get sp : Rat) / bd.tickHz) ∧
  (∀ (div : PulseDiv) (n : Nat), 1 ≤ n →
    ((∀ a b : Resolution, moveTicks div n a = moveTicks div n b) ↔
      ∀ a b : Resolution, div.get a = div.get b)) ∧
  (∀ (bd : Board) (n : Nat) (sp : Resolution),
    moveTicks PulseDiv.default n sp = n ∧ pulseRate bd PulseDiv.default sp = bd.tickHz ∧
    moveSeconds bd PulseDiv.default n sp = (n : Rat) / bd.tickHz)

/-- R90 as a step lemma: from every state in which the two sides move together, every step but a `SET_STEPS` that the
guard accepts keeps them together and pulses both or neither; a `SET_STEPS n, n` accepted at equal `PULSE_DIV` puts them
together. The spec marks R90 as derived. -/
def Obligations.StepKeepsSidesTogether : Prop :=
  (∀ s t : State, s.Together → ¬ s.takesSetSteps → step s = .next t →
    t.Together ∧ t.pulses.left = t.pulses.right) ∧
  (∀ (s : State) (n : Int), s.left.running = false → s.right.running = false →
    s.pulseDiv.get s.left.speed = s.pulseDiv.get s.right.speed →
    ∃ t, exec (.setSteps n n) s = .next t ∧ t.Together)

/-- R81 to R84, R89, R95, R110 as a step lemma on the advancing ticks a side still runs, from every state that meets the
invariant: a side runs exactly while some are left; a step that spares moves takes one off a running side if it is a tick
with `ENABLE = 1` and `RUN_GATE = 1`, else none; an accepted `SET_STEPS` gives each side those of its new move, none for a
count at or below 0; `ENABLE 0` and `Reset` leave none. -/
def Obligations.StepCountsDownTheMove : Prop :=
  ∀ (s t : State) (side : Side), s.Ready → s.Inv → step s = .next t →
    ((s.motor side).running = true ↔ 0 < s.ticksLeft side) ∧
    (s.sparesMoves = true →
      t.ticksLeft side = s.ticksLeft side - if s.gatedTick && (s.motor side).running then 1 else 0) ∧
    (∀ l r, s.nextCommand = some (.setSteps l r) → s.left.running = false → s.right.running = false →
      t.ticksLeft side = (moveTicks s.pulseDiv (countFor l r side).toNat (s.motor side).speed : Int)) ∧
    (s.nextCommand = some (.enable false) ∨ s.nextEvent = some .reset → t.ticksLeft side = 0)
end

