-- ==== Sys2Proof/Laws/Operands.lean ====
section
/-! SUPPORT. Each operand format reads back what it packs, and the register codes are one to one. -/

namespace Sys2Proof.Machine

@[simp] theorem sideOfBit_bitOfSide (s : Side) : sideOfBit (bitOfSide s) = s := by cases s <;> rfl
@[simp] theorem bitOfSide_sideOfBit (b : Bool) : bitOfSide (sideOfBit b) = b := by cases b <;> rfl

@[simp] theorem directionOfBit_bitOfDirection (d : Direction) : directionOfBit (bitOfDirection d) = d := by
  cases d <;> rfl
@[simp] theorem bitOfDirection_directionOfBit (b : Bool) : bitOfDirection (directionOfBit b) = b := by
  cases b <;> rfl

@[simp] theorem resolutionOfCode_codeOfResolution (p : Resolution) :
    resolutionOfCode (codeOfResolution p) = p := by cases p <;> rfl
theorem codeOfResolution_resolutionOfCode : ∀ c : BitVec 2, codeOfResolution (resolutionOfCode c) = c := by
  decide

@[simp] theorem readFB_packFB (b : Bool) : readFB (packFB b) = some b := by cases b <;> decide

@[simp] theorem readFD_packFD (s : Side) (d : Direction) : readFD (packFD s d) = some (s, d) := by
  cases s <;> cases d <;> decide

@[simp] theorem readFP_packFP (s : Side) (p : Resolution) : readFP (packFP s p) = some (s, p) := by
  cases s <;> cases p <;> decide

@[simp] theorem readFN_packFN : readFN packFN = some () := by decide

theorem countInRange_iff (v : Int) : countInRange v = true ↔ -32768 ≤ v ∧ v ≤ 32767 := by
  simp [countInRange]

/-- A count that fits is read back from the 16-bit field it was written to (R12, R66). -/
theorem sext16_toWord16 {v : Int} (h : countInRange v = true) : sext16 (toWord16 v) = v := by
  rw [countInRange_iff] at h
  exact BitVec.toInt_ofInt_eq_self (by decide) (by simpa using h.1) (by
    have := h.2
    norm_num
    omega)

/-- A 16-bit field always holds a count that fits. -/
theorem countInRange_sext16 (x : Word16) : countInRange (sext16 x) = true := by
  rw [countInRange_iff, sext16]
  have h1 := BitVec.le_toInt x
  have h2 := BitVec.toInt_lt (x := x)
  norm_num at h1 h2
  omega

theorem toWord16_sext16 (x : Word16) : toWord16 (sext16 x) = x := BitVec.ofInt_toInt

@[simp] theorem extract_packFS_left (l r : Int) : (packFS l r).extractLsb' 16 16 = toWord16 l := by
  unfold packFS
  rw [BitVec.extractLsb'_append_eq_of_le (by decide)]
  exact BitVec.extractLsb'_eq_self

@[simp] theorem extract_packFS_right (l r : Int) : (packFS l r).extractLsb' 0 16 = toWord16 r := by
  unfold packFS
  rw [BitVec.extractLsb'_append_eq_of_add_le (by decide)]
  exact BitVec.extractLsb'_eq_self

theorem readFS_packFS {l r : Int} (hl : countInRange l = true) (hr : countInRange r = true) :
    readFS (packFS l r) = (l, r) := by
  simp [readFS, sext16_toWord16 hl, sext16_toWord16 hr]

end Sys2Proof.Machine

namespace Sys2Proof

/-- The opcode byte of an encoded command (R61, R62). -/
@[simp] theorem opcodeField_encode (i : Instr) : opcodeField (encode i) = opcodeOf i := by
  unfold opcodeField encode
  rw [BitVec.extractLsb'_append_eq_of_le (by decide)]
  exact BitVec.extractLsb'_eq_self

/-- The operand of an encoded command (R61). -/
@[simp] theorem operandField_encode (i : Instr) : operandField (encode i) = operandOf i := by
  unfold operandField encode
  rw [BitVec.extractLsb'_append_eq_of_add_le (by decide)]
  exact BitVec.extractLsb'_eq_self

end Sys2Proof
end

