-- ==== Sys2Proof/Laws/State.lean ====
section
/-! SUPPORT. What each update of a record or of the state does to each field, true by unfolding; later proofs
rewrite with these and unfold no record update. -/

namespace Sys2Proof.Machine

-- setEnable
@[simp] theorem State.setEnable_enable (s : State) (b : Bool) : (s.setEnable b).enable = b := rfl
@[simp] theorem State.setEnable_runGate (s : State) (b : Bool) : (s.setEnable b).runGate = s.runGate := rfl
@[simp] theorem State.setEnable_left (s : State) (b : Bool) : (s.setEnable b).left = s.left := rfl
@[simp] theorem State.setEnable_right (s : State) (b : Bool) : (s.setEnable b).right = s.right := rfl
@[simp] theorem State.setEnable_faulted (s : State) (b : Bool) : (s.setEnable b).faulted = s.faulted := rfl
@[simp] theorem State.setEnable_resetDone (s : State) (b : Bool) : (s.setEnable b).resetDone = s.resetDone := rfl
@[simp] theorem State.setEnable_pulseDiv (s : State) (b : Bool) : (s.setEnable b).pulseDiv = s.pulseDiv := rfl
@[simp] theorem State.setEnable_upcoming (s : State) (b : Bool) : (s.setEnable b).upcoming = s.upcoming := rfl
@[simp] theorem State.setEnable_pulses (s : State) (b : Bool) : (s.setEnable b).pulses = s.pulses := rfl
@[simp] theorem State.setEnable_response (s : State) (b : Bool) : (s.setEnable b).response = s.response := rfl

-- setRunGate
@[simp] theorem State.setRunGate_enable (s : State) (b : Bool) : (s.setRunGate b).enable = s.enable := rfl
@[simp] theorem State.setRunGate_runGate (s : State) (b : Bool) : (s.setRunGate b).runGate = b := rfl
@[simp] theorem State.setRunGate_left (s : State) (b : Bool) : (s.setRunGate b).left = s.left := rfl
@[simp] theorem State.setRunGate_right (s : State) (b : Bool) : (s.setRunGate b).right = s.right := rfl
@[simp] theorem State.setRunGate_faulted (s : State) (b : Bool) : (s.setRunGate b).faulted = s.faulted := rfl
@[simp] theorem State.setRunGate_resetDone (s : State) (b : Bool) : (s.setRunGate b).resetDone = s.resetDone := rfl
@[simp] theorem State.setRunGate_pulseDiv (s : State) (b : Bool) : (s.setRunGate b).pulseDiv = s.pulseDiv := rfl
@[simp] theorem State.setRunGate_upcoming (s : State) (b : Bool) : (s.setRunGate b).upcoming = s.upcoming := rfl
@[simp] theorem State.setRunGate_pulses (s : State) (b : Bool) : (s.setRunGate b).pulses = s.pulses := rfl
@[simp] theorem State.setRunGate_response (s : State) (b : Bool) : (s.setRunGate b).response = s.response := rfl

-- emitPulse
@[simp] theorem State.emitPulse_enable (s : State) (side : Side) : (s.emitPulse side).enable = s.enable := rfl
@[simp] theorem State.emitPulse_runGate (s : State) (side : Side) : (s.emitPulse side).runGate = s.runGate := rfl
@[simp] theorem State.emitPulse_left (s : State) (side : Side) : (s.emitPulse side).left = s.left := rfl
@[simp] theorem State.emitPulse_right (s : State) (side : Side) : (s.emitPulse side).right = s.right := rfl
@[simp] theorem State.emitPulse_faulted (s : State) (side : Side) : (s.emitPulse side).faulted = s.faulted := rfl
@[simp] theorem State.emitPulse_resetDone (s : State) (side : Side) : (s.emitPulse side).resetDone = s.resetDone := rfl
@[simp] theorem State.emitPulse_pulseDiv (s : State) (side : Side) : (s.emitPulse side).pulseDiv = s.pulseDiv := rfl
@[simp] theorem State.emitPulse_upcoming (s : State) (side : Side) : (s.emitPulse side).upcoming = s.upcoming := rfl
@[simp] theorem State.emitPulse_pulses (s : State) (side : Side) : (s.emitPulse side).pulses = s.pulses.add side := rfl
@[simp] theorem State.emitPulse_response (s : State) (side : Side) : (s.emitPulse side).response = s.response := rfl

-- deliver
@[simp] theorem State.deliver_enable (s : State) (rest : List Event) : (s.deliver rest).enable = s.enable := rfl
@[simp] theorem State.deliver_runGate (s : State) (rest : List Event) : (s.deliver rest).runGate = s.runGate := rfl
@[simp] theorem State.deliver_left (s : State) (rest : List Event) : (s.deliver rest).left = s.left := rfl
@[simp] theorem State.deliver_right (s : State) (rest : List Event) : (s.deliver rest).right = s.right := rfl
@[simp] theorem State.deliver_faulted (s : State) (rest : List Event) : (s.deliver rest).faulted = s.faulted := rfl
@[simp] theorem State.deliver_resetDone (s : State) (rest : List Event) : (s.deliver rest).resetDone = s.resetDone := rfl
@[simp] theorem State.deliver_pulseDiv (s : State) (rest : List Event) : (s.deliver rest).pulseDiv = s.pulseDiv := rfl
@[simp] theorem State.deliver_upcoming (s : State) (rest : List Event) : (s.deliver rest).upcoming = rest := rfl
@[simp] theorem State.deliver_pulses (s : State) (rest : List Event) : (s.deliver rest).pulses = Pulses.empty := rfl
@[simp] theorem State.deliver_response (s : State) (rest : List Event) : (s.deliver rest).response = none := rfl

-- idle
@[simp] theorem State.idle_enable (s : State) : (s.idle).enable = s.enable := rfl
@[simp] theorem State.idle_runGate (s : State) : (s.idle).runGate = s.runGate := rfl
@[simp] theorem State.idle_left (s : State) : (s.idle).left = s.left := rfl
@[simp] theorem State.idle_right (s : State) : (s.idle).right = s.right := rfl
@[simp] theorem State.idle_faulted (s : State) : (s.idle).faulted = s.faulted := rfl
@[simp] theorem State.idle_resetDone (s : State) : (s.idle).resetDone = s.resetDone := rfl
@[simp] theorem State.idle_pulseDiv (s : State) : (s.idle).pulseDiv = s.pulseDiv := rfl
@[simp] theorem State.idle_upcoming (s : State) : (s.idle).upcoming = [] := rfl
@[simp] theorem State.idle_pulses (s : State) : (s.idle).pulses = Pulses.empty := rfl
@[simp] theorem State.idle_response (s : State) : (s.idle).response = none := rfl

-- applyReset
@[simp] theorem State.applyReset_enable (s : State) : (s.applyReset).enable = false := rfl
@[simp] theorem State.applyReset_runGate (s : State) : (s.applyReset).runGate = false := rfl
@[simp] theorem State.applyReset_left (s : State) : (s.applyReset).left = Motor.reset := rfl
@[simp] theorem State.applyReset_right (s : State) : (s.applyReset).right = Motor.reset := rfl
@[simp] theorem State.applyReset_faulted (s : State) : (s.applyReset).faulted = false := rfl
@[simp] theorem State.applyReset_resetDone (s : State) : (s.applyReset).resetDone = true := rfl
@[simp] theorem State.applyReset_pulseDiv (s : State) : (s.applyReset).pulseDiv = s.pulseDiv := rfl
@[simp] theorem State.applyReset_upcoming (s : State) : (s.applyReset).upcoming = s.upcoming := rfl
@[simp] theorem State.applyReset_pulses (s : State) : (s.applyReset).pulses = Pulses.empty := rfl
@[simp] theorem State.applyReset_response (s : State) : (s.applyReset).response = none := rfl

-- issue
@[simp] theorem State.issue_enable (s : State) (w : CmdWord) : (s.issue w).enable = s.enable := rfl
@[simp] theorem State.issue_runGate (s : State) (w : CmdWord) : (s.issue w).runGate = s.runGate := rfl
@[simp] theorem State.issue_left (s : State) (w : CmdWord) : (s.issue w).left = s.left := rfl
@[simp] theorem State.issue_right (s : State) (w : CmdWord) : (s.issue w).right = s.right := rfl
@[simp] theorem State.issue_faulted (s : State) (w : CmdWord) : (s.issue w).faulted = s.faulted := rfl
@[simp] theorem State.issue_resetDone (s : State) (w : CmdWord) : (s.issue w).resetDone = s.resetDone := rfl
@[simp] theorem State.issue_pulseDiv (s : State) (w : CmdWord) : (s.issue w).pulseDiv = s.pulseDiv := rfl
@[simp] theorem State.issue_upcoming (s : State) (w : CmdWord) : (s.issue w).upcoming = .cmd w :: s.upcoming := rfl
@[simp] theorem State.issue_pulses (s : State) (w : CmdWord) : (s.issue w).pulses = s.pulses := rfl
@[simp] theorem State.issue_response (s : State) (w : CmdWord) : (s.issue w).response = s.response := rfl

-- raiseSetupFailed
@[simp] theorem raiseSetupFailed_enable (s : State) : (raiseSetupFailed s).enable = s.enable := rfl
@[simp] theorem raiseSetupFailed_runGate (s : State) : (raiseSetupFailed s).runGate = s.runGate := rfl
@[simp] theorem raiseSetupFailed_left (s : State) : (raiseSetupFailed s).left = s.left := rfl
@[simp] theorem raiseSetupFailed_right (s : State) : (raiseSetupFailed s).right = s.right := rfl
@[simp] theorem raiseSetupFailed_faulted (s : State) : (raiseSetupFailed s).faulted = true := rfl
@[simp] theorem raiseSetupFailed_resetDone (s : State) : (raiseSetupFailed s).resetDone = s.resetDone := rfl
@[simp] theorem raiseSetupFailed_pulseDiv (s : State) : (raiseSetupFailed s).pulseDiv = s.pulseDiv := rfl
@[simp] theorem raiseSetupFailed_upcoming (s : State) : (raiseSetupFailed s).upcoming = s.upcoming := rfl
@[simp] theorem raiseSetupFailed_pulses (s : State) : (raiseSetupFailed s).pulses = s.pulses := rfl
@[simp] theorem raiseSetupFailed_response (s : State) : (raiseSetupFailed s).response = s.response := rfl

-- setMotor
@[simp] theorem State.setMotor_enable (s : State) (side : Side) (m : Motor) :
    (s.setMotor side m).enable = s.enable := by cases side <;> rfl
@[simp] theorem State.setMotor_runGate (s : State) (side : Side) (m : Motor) :
    (s.setMotor side m).runGate = s.runGate := by cases side <;> rfl
@[simp] theorem State.setMotor_faulted (s : State) (side : Side) (m : Motor) :
    (s.setMotor side m).faulted = s.faulted := by cases side <;> rfl
@[simp] theorem State.setMotor_resetDone (s : State) (side : Side) (m : Motor) :
    (s.setMotor side m).resetDone = s.resetDone := by cases side <;> rfl
@[simp] theorem State.setMotor_pulseDiv (s : State) (side : Side) (m : Motor) :
    (s.setMotor side m).pulseDiv = s.pulseDiv := by cases side <;> rfl
@[simp] theorem State.setMotor_upcoming (s : State) (side : Side) (m : Motor) :
    (s.setMotor side m).upcoming = s.upcoming := by cases side <;> rfl
@[simp] theorem State.setMotor_pulses (s : State) (side : Side) (m : Motor) :
    (s.setMotor side m).pulses = s.pulses := by cases side <;> rfl
@[simp] theorem State.setMotor_response (s : State) (side : Side) (m : Motor) :
    (s.setMotor side m).response = s.response := by cases side <;> rfl
@[simp] theorem State.setMotor_left_left (s : State) (m : Motor) : (s.setMotor .left m).left = m := rfl
@[simp] theorem State.setMotor_right_left (s : State) (m : Motor) : (s.setMotor .right m).left = s.left := rfl
@[simp] theorem State.setMotor_left_right (s : State) (m : Motor) : (s.setMotor .left m).right = s.right := rfl
@[simp] theorem State.setMotor_right_right (s : State) (m : Motor) : (s.setMotor .right m).right = m := rfl

-- Motor.stop
@[simp] theorem Motor.stop_running (m : Motor) : (m.stop).running = false := rfl
@[simp] theorem Motor.stop_direction (m : Motor) : (m.stop).direction = m.direction := rfl
@[simp] theorem Motor.stop_speed (m : Motor) : (m.stop).speed = m.speed := rfl
@[simp] theorem Motor.stop_steps (m : Motor) : (m.stop).steps = m.steps := rfl
@[simp] theorem Motor.stop_phase (m : Motor) : (m.stop).phase = m.phase := rfl
@[simp] theorem Motor.stop_dirOut (m : Motor) : (m.stop).dirOut = m.dirOut := rfl
@[simp] theorem Motor.stop_msOut (m : Motor) : (m.stop).msOut = m.msOut := rfl

-- Motor.loadLatches
@[simp] theorem Motor.loadLatches_running (m : Motor) : (m.loadLatches).running = m.running := rfl
@[simp] theorem Motor.loadLatches_direction (m : Motor) : (m.loadLatches).direction = m.direction := rfl
@[simp] theorem Motor.loadLatches_speed (m : Motor) : (m.loadLatches).speed = m.speed := rfl
@[simp] theorem Motor.loadLatches_steps (m : Motor) : (m.loadLatches).steps = m.steps := rfl
@[simp] theorem Motor.loadLatches_phase (m : Motor) : (m.loadLatches).phase = m.phase := rfl
@[simp] theorem Motor.loadLatches_dirOut (m : Motor) : (m.loadLatches).dirOut = m.direction := rfl
@[simp] theorem Motor.loadLatches_msOut (m : Motor) : (m.loadLatches).msOut = m.speed := rfl

-- Motor.clearSteps
@[simp] theorem Motor.clearSteps_running (m : Motor) : (m.clearSteps).running = m.running := rfl
@[simp] theorem Motor.clearSteps_direction (m : Motor) : (m.clearSteps).direction = m.direction := rfl
@[simp] theorem Motor.clearSteps_speed (m : Motor) : (m.clearSteps).speed = m.speed := rfl
@[simp] theorem Motor.clearSteps_steps (m : Motor) : (m.clearSteps).steps = 0#16 := rfl
@[simp] theorem Motor.clearSteps_phase (m : Motor) : (m.clearSteps).phase = m.phase := rfl
@[simp] theorem Motor.clearSteps_dirOut (m : Motor) : (m.clearSteps).dirOut = m.dirOut := rfl
@[simp] theorem Motor.clearSteps_msOut (m : Motor) : (m.clearSteps).msOut = m.msOut := rfl

-- Motor.arm
@[simp] theorem Motor.arm_running (m : Motor) (v : Int) : (m.arm v).running = true := rfl
@[simp] theorem Motor.arm_direction (m : Motor) (v : Int) : (m.arm v).direction = m.direction := rfl
@[simp] theorem Motor.arm_speed (m : Motor) (v : Int) : (m.arm v).speed = m.speed := rfl
@[simp] theorem Motor.arm_steps (m : Motor) (v : Int) : (m.arm v).steps = toWord16 v := rfl
@[simp] theorem Motor.arm_phase (m : Motor) (v : Int) : (m.arm v).phase = 0#16 := rfl
@[simp] theorem Motor.arm_dirOut (m : Motor) (v : Int) : (m.arm v).dirOut = m.direction := rfl
@[simp] theorem Motor.arm_msOut (m : Motor) (v : Int) : (m.arm v).msOut = m.speed := rfl

-- Motor.countDown
@[simp] theorem Motor.countDown_running (m : Motor) : (m.countDown).running = runningAfter m.running (m.steps - 1#16) := rfl
@[simp] theorem Motor.countDown_direction (m : Motor) : (m.countDown).direction = m.direction := rfl
@[simp] theorem Motor.countDown_speed (m : Motor) : (m.countDown).speed = m.speed := rfl
@[simp] theorem Motor.countDown_steps (m : Motor) : (m.countDown).steps = m.steps - 1#16 := rfl
@[simp] theorem Motor.countDown_phase (m : Motor) : (m.countDown).phase = m.phase := rfl
@[simp] theorem Motor.countDown_dirOut (m : Motor) : (m.countDown).dirOut = m.dirOut := rfl
@[simp] theorem Motor.countDown_msOut (m : Motor) : (m.countDown).msOut = m.msOut := rfl

-- the record of a side
@[simp] theorem State.motor_left (s : State) : s.motor .left = s.left := rfl
@[simp] theorem State.motor_right (s : State) : s.motor .right = s.right := rfl

@[simp] theorem State.motor_setMotor (s : State) (side : Side) (m : Motor) :
    (s.setMotor side m).motor side = m := by cases side <;> rfl

theorem State.motor_setMotor_ne (s : State) {side other : Side} (h : other ≠ side) (m : Motor) :
    (s.setMotor side m).motor other = s.motor other := by
  cases side <;> cases other <;> first | rfl | exact absurd rfl h

@[simp] theorem State.motor_setMotor_other (s : State) (side : Side) (m : Motor) :
    (s.setMotor side m).motor side.other = s.motor side.other := by cases side <;> rfl

@[simp] theorem State.setMotor_motor (s : State) (side : Side) : s.setMotor side (s.motor side) = s := by
  cases side <;> rfl

@[simp] theorem State.setMotor_setMotor (s : State) (side : Side) (m n : Motor) :
    (s.setMotor side m).setMotor side n = s.setMotor side n := by cases side <;> rfl

@[simp] theorem State.motor_setEnable (s : State) (b : Bool) (side : Side) :
    (s.setEnable b).motor side = s.motor side := by cases side <;> rfl

@[simp] theorem State.motor_setRunGate (s : State) (b : Bool) (side : Side) :
    (s.setRunGate b).motor side = s.motor side := by cases side <;> rfl

@[simp] theorem State.motor_emitPulse (s : State) (p side : Side) :
    (s.emitPulse p).motor side = s.motor side := by cases side <;> rfl

@[simp] theorem State.motor_deliver (s : State) (rest : List Event) (side : Side) :
    (s.deliver rest).motor side = s.motor side := by cases side <;> rfl

@[simp] theorem State.motor_idle (s : State) (side : Side) : s.idle.motor side = s.motor side := by
  cases side <;> rfl

@[simp] theorem State.motor_applyReset (s : State) (side : Side) : s.applyReset.motor side = Motor.reset := by
  cases side <;> rfl

@[simp] theorem motor_raiseSetupFailed (s : State) (side : Side) :
    (raiseSetupFailed s).motor side = s.motor side := by cases side <;> rfl

@[simp] theorem State.motor_stopBoth (s : State) (side : Side) :
    s.stopBoth.motor side = (s.motor side).stop := by cases side <;> rfl

-- the pulse set
@[simp] theorem Pulses.has_empty (side : Side) : Pulses.empty.has side = false := by cases side <;> rfl

@[simp] theorem Pulses.has_add (p : Pulses) (side : Side) : (p.add side).has side = true := by
  cases side <;> rfl

theorem Pulses.has_add_ne (p : Pulses) {side other : Side} (h : other ≠ side) :
    (p.add side).has other = p.has other := by
  cases side <;> cases other <;> first | rfl | exact absurd rfl h

-- the lines are those of the latches and of ENABLE
theorem lineLevel_congr (bd : Board) {s t : State} (he : s.enable = t.enable)
    (hd : ∀ side, (s.motor side).dirOut = (t.motor side).dirOut)
    (hm : ∀ side, (s.motor side).msOut = (t.motor side).msOut) (g : Signal) :
    lineLevel bd s g = lineLevel bd t g := by
  cases g <;> simp [lineLevel, enLine, dirLine, msCode, he, hd, hm]

end Sys2Proof.Machine
end

