-- ==== Sys2Proof/Laws/Ops.lean ====
section
/-! SUPPORT. For each shared operation, once, everything it can do. -/

namespace Sys2Proof.Machine

/-- A rejection answers the state it was given (R105). -/
theorem reject_next {s t : State} (h : reject s = .next t) : t = s := by
  cases h; rfl

/-- A response changes nothing but the response (R14). -/
theorem respond_next {v : StatusWord} {s t : State} (h : respond v s = .next t) :
    t = { s with response := some v } := by
  cases h; rfl

/-- The guard of `SET_DIRECTION` and `SET_SPEED` as a proposition (R105). -/
theorem State.sideBusy_eq_true (s : State) (side : Side) :
    s.sideBusy side = true ↔ (s.motor side).running = true := Iff.rfl

/-- The guard of `SET_STEPS` as a proposition (R105). -/
theorem State.anyBusy_eq_true (s : State) :
    s.anyBusy = true ↔ s.left.running = true ∨ s.right.running = true := by
  simp [State.anyBusy]

theorem State.anyBusy_eq_false (s : State) :
    s.anyBusy = false ↔ s.left.running = false ∧ s.right.running = false := by
  simp [State.anyBusy]

/-- What `SET_STEPS` does to one side: it arms it, or it stores 0 (R110). -/
theorem Motor.loadCount_cases (m : Motor) (v : Int) :
    (0 < v ∧ m.loadCount v = m.arm v) ∨ (v ≤ 0 ∧ m.loadCount v = m.clearSteps) := by
  by_cases h : 0 < v
  · exact .inl ⟨h, by simp [Motor.loadCount, isMotion, h]⟩
  · exact .inr ⟨by omega, by simp [Motor.loadCount, isMotion, h]⟩

/-- What the engine does to one side: nothing, a phase step, a pulse, or a stop without a pulse (R81 to R85). -/
theorem State.engineSide_cases (s : State) (side : Side) :
    (s.advances side = false ∧ s.engineSide side = s) ∨
    (s.advances side = true ∧
      isPulseTick s.pulseDiv (s.motor side).speed ((s.motor side).phase + 1#16) = false ∧
      s.engineSide side = s.setMotor side { s.motor side with phase := (s.motor side).phase + 1#16 }) ∨
    (s.advances side = true ∧
      isPulseTick s.pulseDiv (s.motor side).speed ((s.motor side).phase + 1#16) = true ∧
      (s.motor side).hasSteps = true ∧
      s.engineSide side =
        (s.emitPulse side).setMotor side { (s.motor side).loadLatches.countDown with phase := 0#16 }) ∨
    (s.advances side = true ∧
      isPulseTick s.pulseDiv (s.motor side).speed ((s.motor side).phase + 1#16) = true ∧
      (s.motor side).hasSteps = false ∧
      s.engineSide side = s.setMotor side { (s.motor side).stop with phase := 0#16 }) := by
  cases ha : s.advances side with
  | false => exact .inl ⟨rfl, by simp [State.engineSide, ha]⟩
  | true =>
    right
    cases hp : isPulseTick s.pulseDiv (s.motor side).speed ((s.motor side).phase + 1#16) with
    | false => exact .inl ⟨rfl, rfl, by simp [State.engineSide, ha, hp]⟩
    | true =>
      right
      cases hs : (s.motor side).hasSteps with
      | true =>
        refine .inl ⟨rfl, rfl, rfl, ?_⟩
        have hs' : ({ s.motor side with phase := 0#16 } : Motor).hasSteps = true := hs
        simp only [State.engineSide, ha, hp, if_true, State.pulseTick, State.motor_setMotor, hs']
        cases side <;> rfl
      | false =>
        refine .inr ⟨rfl, rfl, rfl, ?_⟩
        have hs' : ({ s.motor side with phase := 0#16 } : Motor).hasSteps = false := hs
        simp only [State.engineSide, ha, hp, if_true, State.pulseTick, State.motor_setMotor, hs',
          State.setMotor_setMotor]
        simp [Motor.stop]

/-- The engine's work on one side leaves every field but that side's record and the pulse set. -/
theorem State.engineSide_frame (s : State) (side : Side) :
    (s.engineSide side).enable = s.enable ∧ (s.engineSide side).runGate = s.runGate ∧
    (s.engineSide side).faulted = s.faulted ∧ (s.engineSide side).resetDone = s.resetDone ∧
    (s.engineSide side).pulseDiv = s.pulseDiv ∧ (s.engineSide side).upcoming = s.upcoming ∧
    (s.engineSide side).response = s.response ∧
    (s.engineSide side).motor side.other = s.motor side.other ∧
    (s.engineSide side).pulses.has side.other = s.pulses.has side.other := by
  rcases s.engineSide_cases side with ⟨-, h⟩ | ⟨-, -, h⟩ | ⟨-, -, -, h⟩ | ⟨-, -, -, h⟩ <;> rw [h] <;>
    cases side <;> simp [Side.other, Pulses.has, Pulses.add]

end Sys2Proof.Machine
end

