-- ==== Sys2Proof/Laws/PerInstr.lean ====
section
/-! SUPPORT. A statement about every command, made per constructor: the encoded word lies in the row of the
opcode map that bears the command's mnemonic (spec/30_encoding.md R62). -/

namespace Sys2Proof.Laws.EncodedRow

/-- The word of the command matches the row of its mnemonic. -/
def Statement (i : Instr) : Prop :=
  ∃ row ∈ opcodeTable, row.mnemonic = mnemonicOf i ∧ row.matches (encode i) = true

/-- Masking a command word masks its two fields. -/
theorem append_and_append (a b : OpcodeByte) (x y : OperandWord) :
    (a ++ x) &&& (b ++ y) = (a &&& b) ++ (x &&& y) := by
  apply BitVec.eq_of_getLsbD_eq
  intro i _
  simp only [BitVec.getLsbD_and, BitVec.getLsbD_append]
  split <;> rfl

theorem enable (b : Bool) : Statement (.enable b) := by
  cases b <;> exact ⟨_, .head _, rfl, by decide⟩

theorem setRunning (b : Bool) : Statement (.setRunning b) := by
  cases b <;> exact ⟨_, .tail _ (.head _), rfl, by decide⟩

theorem setDirection (side : Side) (d : Direction) : Statement (.setDirection side d) := by
  cases side <;> cases d <;> exact ⟨_, .tail _ (.tail _ (.head _)), rfl, by decide⟩

/-- The mask of format `FS` keeps the opcode byte and drops both counts. -/
theorem setSteps (left right : Int) : Statement (.setSteps left right) := by
  refine ⟨_, .tail _ (.tail _ (.tail _ (.head _))), rfl, ?_⟩
  have h := append_and_append 0x04#8 0xFF#8 (operandOf (.setSteps left right)) 0#32
  rw [BitVec.and_zero] at h
  simpa [OpcodeRow.matches, encode, opcodeOf] using h

theorem setSpeed (side : Side) (p : Resolution) : Statement (.setSpeed side p) := by
  cases side <;> cases p <;>
    exact ⟨_, .tail _ (.tail _ (.tail _ (.tail _ (.head _)))), rfl, by decide⟩

theorem status : Statement .status :=
  ⟨_, .tail _ (.tail _ (.tail _ (.tail _ (.tail _ (.head _))))), rfl, by decide⟩

end Sys2Proof.Laws.EncodedRow
end

