-- ==== Sys2Proof/Laws/Step.lean ====
section
/-! SUPPORT. Once, what a command and a step can do. -/

namespace Sys2Proof.Machine

/-- A command touches nothing the model itself carries but the response, which only `STATUS` gives. -/
theorem exec_carries {i : Instr} {s t : State} (h : exec i s = .next t) :
    t.faulted = s.faulted ∧ t.resetDone = s.resetDone ∧ t.pulseDiv = s.pulseDiv ∧
    t.upcoming = s.upcoming ∧ t.pulses = s.pulses ∧ (i ≠ .status → t.response = s.response) := by
  cases i with
  | enable b => cases b <;> cases h <;> simp [State.stopBoth]
  | setRunning b => cases h; simp
  | setDirection side d =>
    simp only [exec, execSetDirection, reject] at h
    split at h <;> cases h <;> simp
  | setSteps l r =>
    simp only [exec, execSetSteps, reject] at h
    split at h <;> cases h <;> simp
  | setSpeed side p =>
    simp only [exec, execSetSpeed, reject] at h
    split at h <;> cases h <;> simp
  | status => cases h; simp

/-- What a command does to the record of one side: nothing, the stop of `ENABLE 0`, one field of an idle side, or a
count loaded while both sides are idle. -/
theorem exec_side {i : Instr} {s t : State} (h : exec i s = .next t) (side : Side) :
    t.motor side = s.motor side ∨
    (i = .enable false ∧ t.motor side = (s.motor side).stop) ∨
    (∃ d, i = .setDirection side d ∧ (s.motor side).running = false ∧
      t.motor side = { s.motor side with direction := d }) ∨
    (∃ p, i = .setSpeed side p ∧ (s.motor side).running = false ∧
      t.motor side = { s.motor side with speed := p }) ∨
    (∃ l r v, i = .setSteps l r ∧ v = (match side with | .left => l | .right => r) ∧
      s.left.running = false ∧ s.right.running = false ∧ t.motor side = (s.motor side).loadCount v) := by
  cases i with
  | enable b =>
    cases b
    · cases h
      exact .inr (.inl ⟨rfl, State.motor_stopBoth _ side⟩)
    · cases h
      exact .inl (State.motor_setEnable _ _ side)
  | setRunning b =>
    cases h
    exact .inl (by simp)
  | setDirection sd d =>
    simp only [exec, execSetDirection, reject] at h
    split at h
    · cases h; exact .inl rfl
    · rename_i hb
      cases h
      by_cases e : side = sd
      · subst e
        exact .inr (.inr (.inl ⟨d, rfl, by simpa [State.sideBusy] using hb, by simp⟩))
      · exact .inl (State.motor_setMotor_ne s e _)
  | setSpeed sd p =>
    simp only [exec, execSetSpeed, reject] at h
    split at h
    · cases h; exact .inl rfl
    · rename_i hb
      cases h
      by_cases e : side = sd
      · subst e
        exact .inr (.inr (.inr (.inl ⟨p, rfl, by simpa [State.sideBusy] using hb, by simp⟩)))
      · exact .inl (State.motor_setMotor_ne s e _)
  | setSteps l r =>
    simp only [exec, execSetSteps, reject] at h
    split at h
    · cases h; exact .inl rfl
    · rename_i hb
      cases h
      have hb' := s.anyBusy_eq_false.1 (by simpa using hb)
      refine .inr (.inr (.inr (.inr ⟨l, r, _, rfl, rfl, hb'.1, hb'.2, ?_⟩)))
      cases side <;> simp
  | status =>
    cases h
    exact .inl (by cases side <;> rfl)

/-- A tick leaves everything but the two records and the pulse set. -/
theorem State.tick_frame (s : State) :
    s.tick.enable = s.enable ∧ s.tick.runGate = s.runGate ∧ s.tick.faulted = s.faulted ∧
    s.tick.resetDone = s.resetDone ∧ s.tick.pulseDiv = s.pulseDiv ∧ s.tick.upcoming = s.upcoming ∧
    s.tick.response = s.response := by
  have h1 := s.engineSide_frame .left
  have h2 := (s.engineSide .left).engineSide_frame .right
  unfold State.tick
  simp_all

/-- `k + 1` steps are a step and then `k` steps. -/
theorem run_succ_of_next {s t : State} (k : Nat) (h : step s = .next t) :
    Host.Core.run Sys2Proof.core (k + 1) s = Host.Core.run Sys2Proof.core k t := by
  simp only [Host.Core.run, show Sys2Proof.core.step s = .next t from h]

/-- Every way a step can lead to a next state. -/
theorem step_cases {s t : State} (h : step s = .next t) :
    s.faulted = false ∧
    ((s.upcoming = [] ∧ t = s.idle) ∨
     (∃ rest, s.upcoming = .reset :: rest ∧ t = (s.deliver rest).applyReset) ∨
     (∃ rest, s.upcoming = .setupFailed :: rest ∧ t = raiseSetupFailed (s.deliver rest)) ∨
     (∃ rest, s.upcoming = .tick :: rest ∧ s.resetDone = true ∧ t = (s.deliver rest).tick) ∨
     (∃ w rest i, s.upcoming = .cmd w :: rest ∧ s.resetDone = true ∧ decode w = .ok i ∧
        exec i (s.deliver rest) = .next t)) := by
  unfold step react at h
  split at h
  · cases h
  · rename_i hf
    refine ⟨by simpa using hf, ?_⟩
    unfold takeEvent at h
    split at h
    · cases h; exact .inl ⟨by assumption, rfl⟩
    · rename_i e rest hu
      right
      cases e with
      | reset => cases h; exact .inl ⟨rest, hu, rfl⟩
      | setupFailed => cases h; exact .inr (.inl ⟨rest, hu, rfl⟩)
      | tick =>
        simp only [onEvent, onTick] at h
        split at h
        · rename_i hr
          cases h
          exact .inr (.inr (.inl ⟨rest, hu, hr, rfl⟩))
        · cases h
      | cmd w =>
        simp only [onEvent, onCommand] at h
        split at h
        · rename_i hr
          split at h
          · rename_i i hi
            exact .inr (.inr (.inr ⟨w, rest, i, hu, hr, hi, h⟩))
          · cases h
        · cases h

end Sys2Proof.Machine
end

