-- ==== Sys2Proof/Laws/Runs.lean ====
section
/-! SUPPORT. The small lemmas of the terms claims about runs use: how they unfold along one step, and what they say of
each kind of event. -/

namespace Sys2Proof.Machine

variable {s t : State}

theorem statesAfter_succ_of_next (k : Nat) (h : step s = .next t) :
    statesAfter (k + 1) s = t :: statesAfter k t := by
  simp only [statesAfter, h]

theorem gatedTicks_succ_of_next (k : Nat) (h : step s = .next t) :
    gatedTicks (k + 1) s = (if s.gatedTick then 1 else 0) + gatedTicks k t := by
  simp only [gatedTicks, h]

@[simp] theorem pulseCount_nil (side : Side) : pulseCount side [] = 0 := rfl

theorem pulseCount_cons (side : Side) (t : State) (ts : List State) :
    pulseCount side (t :: ts) = pulseCount side ts + if t.pulses.has side then 1 else 0 := by
  simp only [pulseCount, List.countP_cons]

theorem nextEvent_of_upcoming {e : Event} {rest : List Event} (h : s.upcoming = e :: rest) :
    s.nextEvent = some e := by
  simp only [State.nextEvent, h, List.head?_cons]

theorem nextCommand_of_upcoming {w : CmdWord} {rest : List Event} {i : Instr}
    (hu : s.upcoming = .cmd w :: rest) (hd : decode w = .ok i) : s.nextCommand = some i := by
  simp [State.nextCommand, nextEvent_of_upcoming hu, Event.command, hd, Except.toOption]

theorem sparesMoves_of_no_event (h : s.upcoming = []) : s.sparesMoves = true := by
  simp [State.sparesMoves, State.nextEvent, h]

theorem sparesMoves_of_tick {rest : List Event} (h : s.upcoming = .tick :: rest) : s.sparesMoves = true := by
  simp [State.sparesMoves, nextEvent_of_upcoming h, Event.sparesMoves]

/-- A command spares moves by its kind, and `SET_STEPS` by the guard. -/
theorem sparesMoves_of_command {w : CmdWord} {rest : List Event} {i : Instr}
    (hu : s.upcoming = .cmd w :: rest) (hd : decode w = .ok i) :
    s.sparesMoves = commandSparesMoves s.anyBusy i := by
  simp [State.sparesMoves, nextEvent_of_upcoming hu, Event.sparesMoves, Event.command, hd, Except.toOption]

/-- No `Reset` and no `SetupFailed` spares moves, nor does a reserved word, which is refused. -/
theorem not_sparesMoves_of_reset {rest : List Event} (h : s.upcoming = .reset :: rest) :
    s.sparesMoves = false := by
  simp [State.sparesMoves, nextEvent_of_upcoming h, Event.sparesMoves]

theorem not_sparesMoves_of_setupFailed {rest : List Event} (h : s.upcoming = .setupFailed :: rest) :
    s.sparesMoves = false := by
  simp [State.sparesMoves, nextEvent_of_upcoming h, Event.sparesMoves]

theorem not_sparesMoves_of_reserved {w : CmdWord} {rest : List Event} {e : DecodeError}
    (hu : s.upcoming = .cmd w :: rest) (hd : decode w = .error e) : s.sparesMoves = false := by
  simp [State.sparesMoves, nextEvent_of_upcoming hu, Event.sparesMoves, Event.command, hd, Except.toOption]

theorem not_takesSetSteps_of_busy (h : s.left.running = true ∨ s.right.running = true) : ¬ s.takesSetSteps := by
  rintro ⟨-, hl, hr⟩
  simp [hl, hr] at h

theorem ticksLeft_of_running {side : Side} (h : (s.motor side).running = true) :
    s.ticksLeft side = sext16 (s.motor side).steps * (s.pulseDiv.get (s.motor side).speed : Int)
      - sext16 (s.motor side).phase := by
  simp only [State.ticksLeft, h, if_true]

theorem ticksLeft_of_idle {side : Side} (h : (s.motor side).running = false) : s.ticksLeft side = 0 := by
  simp [State.ticksLeft, h]

end Sys2Proof.Machine
end

