-- ==== Sys2Proof/Tests/Slice0.lean ====
section
/-! SUPPORT. Tests of one decode or one step each, with expected values from spec/95_test_vectors.md and the
encodings of spec/30_encoding.md, and for every statement a witness that meets its hypotheses. -/

namespace Sys2Proof.Tests

open Sys2Proof Sys2Proof.Machine

/-! ### Helpers -/

/-- Whether an outcome is a next state with a property. -/
def nextWith (o : Result) (p : State → Bool) : Bool :=
  match o with
  | .next t => p t
  | .fault _ => false
  | .refused _ => false

def isReservedRefusal (o : Result) : Bool :=
  match o with
  | .refused (.reservedWord _) => true
  | .refused _ => false
  | .next _ => false
  | .fault _ => false

/-- A running record with `n` steps left, its latches loaded. -/
def moving (n : Word16) (d : Direction) (p : Resolution) : Motor :=
  { running := true, direction := d, speed := p, steps := n, phase := 0#16, dirOut := d, msOut := p }

/-- Enabled, gate open, the given records, the given events to come. -/
def going (l r : Motor) (es : List Event) : State :=
  { State.reset with enable := true, runGate := true, left := l, right := r, upcoming := es }

def fwd (n : Word16) : Motor := moving n .forward .full

/-! ### Well-formedness -/

theorem test_wf_left_too_large : (Instr.setSteps 32768 0).wellFormed = false := by decide
theorem test_wf_left_too_small : (Instr.setSteps (-32769) 0).wellFormed = false := by decide
theorem test_wf_right_too_large : (Instr.setSteps 0 32768).wellFormed = false := by decide
theorem test_wf_right_too_small : (Instr.setSteps 0 (-32769)).wellFormed = false := by decide
theorem test_wf_bounds : (Instr.setSteps 32767 (-32768)).wellFormed = true := by decide

/-! ### Decoding: words written out bit by bit from the patterns of R61 -/

theorem test_decode_enable :
    decode 0b0000000100000000000000000000000000000001#40 = .ok (.enable true) := by decide
theorem test_decode_set_running :
    decode 0b0000001000000000000000000000000000000001#40 = .ok (.setRunning true) := by decide
theorem test_decode_set_direction :
    decode 0b0000001100000000000000000000000100000001#40 = .ok (.setDirection .right .backward) := by decide
theorem test_decode_set_direction_left :
    decode 0b0000001100000000000000000000000000000001#40 = .ok (.setDirection .left .backward) := by decide
theorem test_decode_set_steps :
    decode 0b0000010011111111111110110000000000000011#40 = .ok (.setSteps (-5) 3) := by decide
theorem test_decode_set_speed :
    decode 0b0000010100000000000000000000000100000010#40 = .ok (.setSpeed .right .quarter) := by decide
theorem test_decode_set_speed_half :
    decode 0b0000010100000000000000000000000000000001#40 = .ok (.setSpeed .left .half) := by decide
theorem test_decode_status :
    decode 0b0000011000000000000000000000000000000000#40 = .ok .status := by decide

/-- 95 X7. -/
theorem test_decode_minus_one : decode 0x04FFFFFFFF#40 = .ok (.setSteps (-1) (-1)) := by decide

/-- 95 X1 to X6. -/
theorem test_decode_reserved :
    ([0x0000000000#40, 0x0700000000#40, 0x0100000002#40, 0x0300000002#40, 0x0500000104#40,
      0x0600000001#40].map fun w => (decode w).toOption) = [none, none, none, none, none, none] := by decide

theorem test_reserved_opcode_by_name : decode 0x0700000000#40 = .error (.reservedOpcode 0x07#8) := by decide
theorem test_reserved_bits_by_name :
    decode 0x0100000002#40 = .error (.reservedBits 0x01#8 0x00000002#32) := by decide

theorem test_decode_table_word : decodeTableWord 40 0x0500000003 = some (.setSpeed .left .eighth) := by decide
theorem test_decode_table_word_wide : decodeTableWord 48 0x010600000000 = none := by decide

/-! ### One step each -/

/-- 95 E1, run as the first command after reset. -/
theorem test_enable_from_reset :
    nextWith (step (State.reset.withFetchWord 40 0x0100000001))
      (fun t => t.enable && !t.runGate && !t.left.running && !t.right.running) = true := by decide

/-- 95 E2. -/
theorem test_enable_0 :
    nextWith (exec (.enable false) (going (fwd 50#16) (fwd 9#16) []))
      (fun t => !t.enable && t.runGate && !t.left.running && !t.right.running
        && t.left.steps == 50#16 && t.right.steps == 9#16) = true := by decide

/-- 95 G1. -/
theorem test_set_running_from_reset :
    nextWith (step (State.reset.withFetchWord 40 0x0200000001)) (fun t => t.runGate && !t.enable) = true := by
  decide

/-- 95 G2. -/
theorem test_set_running_0 :
    nextWith (exec (.setRunning false) (going Motor.reset (fwd 7#16) []))
      (fun t => !t.runGate && t.enable && t.right.running && t.right.steps == 7#16) = true := by decide

/-- 95 D1. -/
theorem test_set_direction_from_reset :
    nextWith (step (State.reset.withFetchWord 40 0x0300000101))
      (fun t => t.right.direction == .backward && t.right.dirOut == .forward
        && t.left.direction == .forward) = true := by decide

/-- 95 D2. -/
theorem test_set_direction_rejected :
    nextWith (exec (.setDirection .left .backward) (going (fwd 3#16) Motor.reset []))
      (fun t => t.left == fwd 3#16) = true := by decide

/-- 95 S1. -/
theorem test_set_speed_from_reset :
    nextWith (step (State.reset.withFetchWord 40 0x0500000003))
      (fun t => t.left.speed == .eighth && t.left.msOut == .full && t.right.speed == .full) = true := by decide

/-- 95 S2. -/
theorem test_set_speed_rejected :
    nextWith (exec (.setSpeed .right .half) (going Motor.reset (fwd 3#16) []))
      (fun t => t.right == fwd 3#16) = true := by decide

/-- 95 P-c, run as the first command after reset. -/
theorem test_set_steps_from_reset :
    nextWith (step (State.reset.withFetchWord 40 0x04FFFB0003))
      (fun t => t.left == Motor.reset && t.right == fwd 3#16) = true := by decide

/-- 95 P-f. -/
theorem test_set_steps_rejected_whole :
    nextWith (exec (.setSteps 0 5) (going (fwd 10#16) Motor.reset []))
      (fun t => t.left == fwd 10#16 && t.right == Motor.reset) = true := by decide

/-- 95 Q4. -/
theorem test_status_paused :
    nextWith (exec .status { going Motor.reset (moving 6#16 .backward .eighth) [] with runGate := false })
      (fun t => t.response == some 0x001F000600100000#64) = true := by decide

/-- 95 Q2. -/
theorem test_status_running :
    (going (fwd 199#16) (fwd 199#16) []).statusWord = 0x011100C7001100C7#64 := by decide

/-- 95 T1 and T6: a pulse on L leaves 4 steps, the last pulse on R stops it. -/
theorem test_tick_pulse :
    nextWith (step (going (fwd 5#16) (fwd 1#16) [.tick]))
      (fun t => t.left == fwd 4#16 && !t.right.running && t.right.steps == 0#16
        && t.pulses == ⟨true, true⟩) = true := by decide

/-- 95 T8, tick 2: with HALF at 2, the second tick is L's pulse tick; R at EIGHTH (8) only counts. -/
theorem test_tick_divided :
    nextWith (step { going { moving 3#16 .forward .half with phase := 1#16 }
        { moving 1#16 .forward .eighth with phase := 1#16 } [.tick] with pulseDiv := ⟨1, 2, 4, 8⟩ })
      (fun t => t.left.steps == 2#16 && t.left.phase == 0#16 && t.right.phase == 2#16
        && t.right.running && t.pulses == ⟨true, false⟩) = true := by decide

/-- 95 T9: the unreachable case. -/
theorem test_tick_without_steps :
    nextWith (step (going (fwd 0#16) Motor.reset [.tick]))
      (fun t => !t.left.running && t.left.steps == 0#16 && t.pulses == ⟨false, false⟩) = true := by decide

/-- R86: in an unreachable state the phase wraps to -32768, which is below every divisor. -/
theorem test_tick_phase_wraps :
    nextWith (step (going { fwd 2#16 with phase := 0x7FFF#16 } Motor.reset [.tick]))
      (fun t => t.left.phase == 0x8000#16 && t.left.steps == 2#16 && t.pulses == ⟨false, false⟩) = true := by
  decide

/-- 95 X1: a reserved word is refused. -/
theorem test_reserved_word_refused :
    isReservedRefusal (step (State.reset.withFetchWord 40 0x0000000000)) = true := by decide

/-- R162 and R160: `Reset` from power-up, with any records. -/
theorem test_reset_from_power_up :
    step (State.powerUp true true (fwd 9#16) (fwd 8#16) PulseDiv.default [.reset]) = .next State.reset := rfl

/-! ### Lines and assembler -/

/-- A legal board for the tests. -/
def board : Board where
  enLevel := false
  forwardLevel := ⟨true, false⟩
  msPinCode := msPinCodeDefault
  pinMap := ⟨0, ⟨1, 2⟩, ⟨3, 4⟩, ⟨5, 6⟩, ⟨7, 8⟩⟩
  tickHz := 1000
  pulseWidth := 1 / 100000

/-- 95 O1 and O3: EN at the disabled level, DIR at the levels of FORWARD, L's MS lines high once armed at EIGHTH. -/
theorem test_lines :
    State.lines board { State.reset with left := moving 4#16 .forward .eighth } =
      { en := true, step := ⟨false, false⟩, dir := ⟨true, false⟩, ms1 := ⟨true, false⟩,
        ms2 := ⟨true, false⟩ } := by decide

theorem test_assemble_canonical : assemble "SET_STEPS -5, 3" = some (.setSteps (-5) 3) := by decide
theorem test_assemble_source : assemble "setSpeed(RIGHT, QUARTER)" = some (.setSpeed .right .quarter) := by
  decide
theorem test_assemble_out_of_range : assemble "SET_STEPS 32768, 0" = none := by decide
theorem test_program :
    programEvents ["RESET", "ENABLE 1    ; power", "TICK 2", "status()"] =
      some [.reset, .cmd 0x0100000001#40, .tick, .tick, .cmd 0x0600000000#40] := by decide

/-! ### Witnesses: states and operands that meet the hypotheses of each statement -/

/-- An outcome is some next state. -/
theorem next_exists {o : Result} (h : nextWith o (fun _ => true) = true) : ∃ t, o = .next t := by
  cases o with
  | next t => exact ⟨t, rfl⟩
  | fault _ => cases h
  | refused _ => cases h

theorem inv_moving (div : PulseDiv) (hd : div.Legal) (n : Word16) (h : 1 ≤ sext16 n) (d : Direction)
    (p : Resolution) : (moving n d p).Inv div := by
  have h1 := (hd p).1
  have h2 := BitVec.toInt_lt (x := n)
  refine ⟨⟨by simp only [moving]; omega, ?_⟩, fun _ => h, fun _ => ?_, fun _ => ⟨rfl, rfl⟩⟩
  · simp only [moving, sext16]
    norm_num at h2
    omega
  · simp only [moving, sext16]
    simp
    omega

theorem default_legal : PulseDiv.default.Legal := by
  intro sp; cases sp <;> decide

theorem largest_legal : PulseDiv.Legal ⟨32767, 32767, 32767, 32767⟩ := by
  intro sp; cases sp <;> decide

/-- The state most witnesses use: both sides move, a reachable and ready state. -/
def both (es : List Event) : State := going (fwd 5#16) (moving 1#16 .backward .half) es

theorem both_inv (es : List Event) : (both es).Inv := by
  refine ⟨default_legal, fun _ side => ?_⟩
  cases side
  · exact inv_moving _ default_legal _ (by decide) _ _
  · exact inv_moving _ default_legal _ (by decide) _ _

theorem both_ready (es : List Event) : (both es).Ready := ⟨rfl, rfl⟩

theorem witness_decode_of_encode : (Instr.setSteps 32767 (-32768)).WellFormed := by decide
theorem witness_encode_of_decode : decode 0x047FFF8000#40 = .ok (.setSteps 32767 (-32768)) := by decide
theorem witness_opcode_map :
    decode 0x0500000103#40 = .ok (.setSpeed .right .eighth) ∧
    (⟨"SET_SPEED", 0x0500000000#40, 0xFFFFFFFEFC#40⟩ : OpcodeRow) ∈ opcodeTable ∧
    (⟨"SET_SPEED", 0x0500000000#40, 0xFFFFFFFEFC#40⟩ : OpcodeRow).matches 0x0500000103#40 = true := by decide

/-- One reserved word for each clause of R69, at the ends of its ranges. -/
theorem witness_reserved_words :
    IsReserved 0x0000000000#40 ∧ IsReserved 0x07FFFFFFFF#40 ∧ IsReserved 0xFF00000000#40 ∧
    IsReserved 0x0100000002#40 ∧ IsReserved 0x0280000000#40 ∧ IsReserved 0x0300000002#40 ∧
    IsReserved 0x0300000200#40 ∧ IsReserved 0x0500000004#40 ∧ IsReserved 0x0580000000#40 ∧
    IsReserved 0x0600000001#40 :=
  ⟨.inl (by decide), .inr (.inl (by decide)), .inr (.inl (by decide)),
   .inr (.inr (.inl ⟨.inl (by decide), 1, by decide⟩)),
   .inr (.inr (.inl ⟨.inr (by decide), 31, by decide⟩)),
   .inr (.inr (.inr (.inl ⟨by decide, 1, by decide⟩))),
   .inr (.inr (.inr (.inl ⟨by decide, 9, by decide⟩))),
   .inr (.inr (.inr (.inr (.inl ⟨by decide, 2, by decide⟩)))),
   .inr (.inr (.inr (.inr (.inl ⟨by decide, 31, by decide⟩)))),
   .inr (.inr (.inr (.inr (.inr ⟨by decide, 0, by decide⟩))))⟩

theorem witness_reserved_step :
    IsReserved 0x0700000000#40 ∧ (both [.cmd 0x0700000000#40]).Ready ∧
    (both [.cmd 0x0700000000#40]).upcoming = .cmd 0x0700000000#40 :: [] :=
  ⟨.inr (.inl (by decide)), both_ready _, rfl⟩

theorem witness_canonical_text : (Instr.setSteps (-32768) 32767).WellFormed := by decide

theorem witness_step_runs :
    (both [.cmd 0x0600000000#40]).Ready ∧
    (both [.cmd 0x0600000000#40]).upcoming = .cmd 0x0600000000#40 :: [] ∧
    decode 0x0600000000#40 = .ok .status := ⟨both_ready _, rfl, by decide⟩

theorem witness_step_takes_one_event : ∃ t, step (both [.tick, .reset]) = .next t :=
  next_exists (by decide)

theorem witness_no_event : State.reset.faulted = false ∧ State.reset.upcoming = [] := ⟨rfl, rfl⟩

theorem witness_no_runtime_exception :
    ((both [.tick]).Ready ∧ (both [.tick]).upcoming = .tick :: []) ∧
    step { both [] with faulted := true } = .fault .setupFailed ∧
    step (both [.cmd 0#40]) = .refused (.reservedWord 0#40) ∧
    step { both [.tick] with resetDone := false } = .refused .beforeReset := ⟨⟨both_ready _, rfl⟩, rfl, rfl, rfl⟩

theorem witness_setup_failure :
    ((both [.setupFailed]).faulted = false ∧ (both [.setupFailed]).upcoming = .setupFailed :: []) ∧
    (∃ t, step (both [.setupFailed]) = .next t ∧ t.faulted = true) ∧
    ({ both [] with faulted := true } : State).faulted = true := ⟨⟨rfl, rfl⟩, ⟨_, rfl, rfl⟩, rfl⟩

theorem witness_reset : (both [.reset]).faulted = false ∧ (both [.reset]).upcoming = .reset :: [] := ⟨rfl, rfl⟩

theorem witness_global_control_frame :
    (∃ t, exec (.enable false) (both []) = .next t) ∧ (∃ t, exec (.enable true) (both []) = .next t) ∧
    ∃ t, exec (.setRunning true) (both []) = .next t := ⟨⟨_, rfl⟩, ⟨_, rfl⟩, ⟨_, rfl⟩⟩

/-- Both guard clauses of `SET_DIRECTION` and `SET_SPEED`, and both of `SET_STEPS`. -/
theorem witness_guard_clauses :
    ((both []).motor .left).running = true ∧ (State.reset.motor .right).running = false ∧
    (going (fwd 1#16) Motor.reset []).left.running = true ∧
    (going (fwd 1#16) Motor.reset []).right.running = false ∧
    State.reset.left.running = false ∧ State.reset.right.running = false := by decide

/-- The count clauses at their boundaries: 1 and 32767 arm, 0 and -32768 do not. -/
theorem witness_set_steps_counts :
    (Instr.setSteps 1 0).WellFormed ∧ (Instr.setSteps 32767 (-32768)).WellFormed ∧
    0 < countFor 1 0 .left ∧ countFor 1 0 .right ≤ 0 ∧
    0 < countFor 32767 (-32768) .left ∧ countFor 32767 (-32768) .right ≤ 0 := by decide

theorem witness_guard_rejects :
    ((both [.cmd 0x0300000001#40]).Ready ∧
      (both [.cmd 0x0300000001#40]).upcoming = .cmd 0x0300000001#40 :: [] ∧
      decode 0x0300000001#40 = .ok (.setDirection .left .backward) ∧
      ((both [.cmd 0x0300000001#40]).motor .left).running = true) ∧
    (({ State.reset with upcoming := [.cmd 0x0500000101#40] } : State).Ready ∧
      decode 0x0500000101#40 = .ok (.setSpeed .right .half) ∧
      (State.reset.motor .right).running = false) ∧
    (decode 0x0400010000#40 = .ok (.setSteps 1 0) ∧ (both []).right.running = true ∧
      State.reset.left.running = false ∧ State.reset.right.running = false) :=
  ⟨⟨both_ready _, rfl, by decide, rfl⟩, ⟨⟨rfl, rfl⟩, by decide, rfl⟩, by decide, rfl, rfl, rfl⟩

theorem witness_motion_setup_frame :
    (∃ t, exec (.setDirection .left .backward) State.reset = .next t) ∧
    (∃ t, exec (.setSpeed .right .quarter) State.reset = .next t) ∧
    (∃ t, exec (.setSteps 5 0) { State.reset with left := { Motor.reset with direction := .backward, speed := .half } }
      = .next t ∧ (t.motor .left).dirOut ≠ .forward ∧ (t.motor .left).msOut ≠ .full) ∧
    countFor 5 0 .right ≤ 0 :=
  ⟨⟨_, rfl⟩, ⟨_, rfl⟩, ⟨_, rfl, by decide, by decide⟩, by decide⟩

theorem witness_repeated_commands :
    (∃ t, exec (.setSpeed .left .half) State.reset = .next t) ∧
    ∃ t, State.reset.left.running = false ∧ State.reset.right.running = false ∧
      ((0 : Int) < 0 ∨ (0 : Int) < 1) ∧ exec (.setSteps 0 1) State.reset = .next t :=
  ⟨⟨_, rfl⟩, ⟨_, rfl, rfl, .inr (by decide), rfl⟩⟩

theorem witness_status_frame : ∃ t, exec .status (both []) = .next t := ⟨_, rfl⟩

/-- A response in which both halves say running. -/
theorem witness_status_consistent :
    (both []).Ready ∧ (both []).Inv ∧
    ∃ t, exec .status (both []) = .next t ∧ t.response = some (both []).statusWord ∧
      (both []).statusWord.getLsbD 16 = true ∧ (both []).statusWord.getLsbD 48 = true :=
  ⟨both_ready _, both_inv _, _, rfl, rfl, by decide, by decide⟩

/-- Two states that differ in `phase` and the latches alone. -/
theorem witness_status_private :
    let s : State := both []
    let s' : State := { s with left := { s.left with phase := 3#16, dirOut := .backward, msOut := .half } }
    s' ≠ s ∧ s'.enable = s.enable ∧ s'.runGate = s.runGate ∧ s'.right = s.right ∧
      s'.left = { s.left with phase := s'.left.phase, dirOut := s'.left.dirOut, msOut := s'.left.msOut } := by
  decide

theorem witness_tick_advances :
    ((both [.tick]).Ready ∧ (both [.tick]).upcoming = .tick :: [] ∧ (both [.tick]).enable = true ∧
      (both [.tick]).runGate = true ∧ ((both [.tick]).motor .left).running = true) ∧
    ¬((going (fwd 1#16) Motor.reset [.tick]).enable = true ∧
      (going (fwd 1#16) Motor.reset [.tick]).runGate = true ∧
      ((going (fwd 1#16) Motor.reset [.tick]).motor .right).running = true) :=
  ⟨⟨both_ready _, rfl, rfl, rfl, rfl⟩, by decide⟩

/-- The three clauses of a tick on an advanced side, at the values where they meet, and a state with the invariant. -/
theorem witness_tick_on_advanced_side :
    (sext16 ((fwd 5#16).phase + 1#16) < (((⟨2, 2, 2, 2⟩ : PulseDiv).get .full : Nat) : Int)) ∧
    ((((⟨1, 1, 1, 1⟩ : PulseDiv).get .full : Nat) : Int) ≤ sext16 ((fwd 1#16).phase + 1#16) ∧
      0 < sext16 (fwd 1#16).steps) ∧
    ((((⟨1, 1, 1, 1⟩ : PulseDiv).get .full : Nat) : Int) ≤ sext16 ((fwd 0#16).phase + 1#16) ∧
      sext16 (fwd 0#16).steps ≤ 0) ∧
    (both [.tick]).Inv ∧ (both [.tick]).pulseDiv = ⟨1, 1, 1, 1⟩ :=
  ⟨by decide, by decide, by decide, both_inv _, rfl⟩

/-- Two states that agree on L and on the shared fields and differ on R. -/
theorem witness_tick_sides :
    (both []).enable = (going (fwd 5#16) Motor.reset []).enable ∧
    (both []).runGate = (going (fwd 5#16) Motor.reset []).runGate ∧
    (both []).pulseDiv = (going (fwd 5#16) Motor.reset []).pulseDiv ∧
    (both []).motor .left = (going (fwd 5#16) Motor.reset []).motor .left ∧
    (both []).pulses.has .left = (going (fwd 5#16) Motor.reset []).pulses.has .left ∧
    (both []).right ≠ (going (fwd 5#16) Motor.reset []).right := by decide

theorem witness_tick_frame :
    (both [.tick]).nextEvent = some .tick ∧ ∃ t, step (both [.tick]) = .next t ∧
      (t.motor .left).steps ≠ ((both [.tick]).motor .left).steps := ⟨rfl, _, rfl, by decide⟩

theorem witness_idle_tick :
    (({ both [.tick] with runGate := false } : State).Ready ∧
      ({ both [.tick] with runGate := false } : State).upcoming = .tick :: [] ∧
      ({ both [.tick] with runGate := false } : State).runGate = false) ∧
    ({ both [.tick] with enable := false } : State).enable = false ∧
    (going Motor.reset Motor.reset [.tick]).left.running = false ∧
    (going Motor.reset Motor.reset [.tick]).right.running = false := ⟨⟨⟨rfl, rfl⟩, rfl, rfl⟩, rfl, rfl, rfl⟩

theorem witness_invariant_at_reset : PulseDiv.default.Legal ∧ PulseDiv.Legal ⟨32767, 32767, 32767, 32767⟩ :=
  ⟨default_legal, largest_legal⟩

theorem witness_step_keeps_invariant : (both [.tick]).Inv ∧ ∃ t, step (both [.tick]) = .next t :=
  ⟨both_inv _, _, rfl⟩

/-- A run from power-up through `Reset` and an arming to a state in which a side runs. -/
theorem witness_reachable :
    PulseDiv.default.Legal ∧ ∃ t, Host.Core.run Sys2Proof.core 2
        (State.powerUp true true (fwd 0#16) (fwd 0#16) PulseDiv.default [.reset, .cmd 0x0400010000#40]) = .next t ∧
      t.resetDone = true ∧ (t.motor .left).running = true := ⟨default_legal, _, rfl, rfl, rfl⟩

theorem witness_default_phase :
    (both [.tick]).pulseDiv = ⟨1, 1, 1, 1⟩ ∧ (∀ side, ((both [.tick]).motor side).phase = 0#16) ∧
    ∃ t, step (both [.tick]) = .next t :=
  ⟨rfl, fun side => by cases side <;> rfl, _, rfl⟩

theorem witness_running_side_setup :
    ((both [.cmd 0x0300000001#40]).motor .left).running = true ∧
    (∃ t, step (both [.cmd 0x0300000001#40]) = .next t) ∧
    (both [.cmd 0x0300000001#40]).nextEvent ≠ some .reset := ⟨rfl, next_exists (by decide), by decide⟩

/-- A step that changes `ENABLE` and a `running` flag, one that changes `RUN_GATE`, one that changes `direction`, one that
changes `speed`. -/
theorem witness_field_writers_commands :
    nextWith (step (both [.cmd 0x0100000000#40])) (fun t => !t.enable && !t.left.running) = true ∧
    nextWith (step (both [.cmd 0x0200000000#40])) (fun t => !t.runGate) = true ∧
    nextWith (step (State.reset.issue 0x0300000001#40)) (fun t => t.left.direction == .backward) = true ∧
    nextWith (step (State.reset.issue 0x0500000001#40)) (fun t => t.left.speed == .half) = true := by decide

/-- A step that arms a side and changes its `steps` and its latches, one that clears a `phase`, a tick that changes
`steps` and stops a side, and one that changes a `phase`. -/
theorem witness_field_writers_moves :
    nextWith (step (({ State.reset with
        left := { Motor.reset with direction := .backward, speed := .half, phase := 1#16 } } : State).issue
          0x0400010000#40))
      (fun t => t.left == moving 1#16 .backward .half) = true ∧
    nextWith (step (both [.tick])) (fun t => t.left.steps == 4#16 && !t.right.running) = true ∧
    nextWith (step { both [.tick] with pulseDiv := ⟨2, 2, 2, 2⟩ }) (fun t => t.left.phase == 1#16) = true := by
  decide

theorem witness_line_levels : board.msPinCode = msPinCodeDefault := rfl

/-- A step that changes EN, one that changes DIR and MS of a side it arms, and one that pulses. -/
theorem witness_line_writers :
    nextWith (step (both [.cmd 0x0100000000#40])) (fun t => lineLevel board t .en != lineLevel board (both []) .en)
      = true ∧
    nextWith (step (({ State.reset with
        left := { Motor.reset with direction := .backward, speed := .eighth } } : State).issue 0x0400010000#40))
      (fun t => lineLevel board t (.dir .left) != lineLevel board State.reset (.dir .left)
        && lineLevel board t (.ms1 .left) != lineLevel board State.reset (.ms1 .left)
        && lineLevel board t (.ms2 .left) != lineLevel board State.reset (.ms2 .left)) = true ∧
    nextWith (step (both [.tick])) (fun t => t.pulses.has .right) = true := by decide

theorem board_legal : board.Legal := by
  refine ⟨?_, ?_, by norm_num [board], by norm_num [board], by norm_num [board]⟩
  · intro a b; cases a <;> cases b <;> decide
  · intro a b h
    cases a <;> cases b <;> (try rename_i x y; cases x <;> cases y) <;> (try rename_i x; cases x) <;>
      first | rfl | (revert h; decide)

theorem witness_physical_lines : board.Legal ∧ ∀ g : Signal, board.pinMap.get g ≠ 9 := by
  refine ⟨board_legal, fun g => ?_⟩
  cases g <;> (try rename_i x; cases x) <;> decide

theorem witness_pulse :
    ∃ t, step (both [.tick]) = .next t ∧ t.pulses.has .left = true := ⟨_, rfl, by decide⟩

theorem witness_running_side_lines :
    (both [.tick]).Ready ∧ (both [.tick]).Inv ∧ ((both [.tick]).motor .left).running = true ∧
    (∃ t, step (both [.tick]) = .next t) ∧ (both [.tick]).nextEvent ≠ some .reset :=
  ⟨both_ready _, both_inv _, rfl, ⟨_, rfl⟩, by decide⟩

theorem idle_inv (es : List Event) : (going Motor.reset Motor.reset es).Inv := by
  refine ⟨default_legal, fun _ side => ?_⟩
  cases side <;> simp [going, Motor.Inv, Motor.reset, sext16, State.motor, State.reset]

/-- The events of the run statements: `SET_STEPS 2, 2`, a tick, a `SET_STEPS 5, 5` that the guard rejects, a tick. -/
def moveEvents : List Event := [.cmd 0x0400020002#40, .tick, .cmd 0x0400050005#40, .tick]

def moveStart : State := going Motor.reset Motor.reset moveEvents

theorem witness_move :
    moveStart.Ready ∧ moveStart.Inv ∧ moveStart.left.running = false ∧ moveStart.right.running = false ∧
    moveStart.upcoming = .cmd 0x0400020002#40 :: [.tick, .cmd 0x0400050005#40, .tick] ∧
    decode 0x0400020002#40 = .ok (.setSteps 2 2) ∧ countFor 2 2 .left = ((2 : Nat) : Int) ∧
    (∀ u ∈ (statesAfter (3 + 1) moveStart).take 3, u.sparesMoves = true) ∧
    statesAfter (3 + 1) moveStart ≠ [] :=
  ⟨⟨rfl, rfl⟩, idle_inv _, rfl, rfl, rfl, by decide, rfl, by decide, by decide⟩

theorem witness_coordinated_stop :
    PulseDiv.default.get Motor.reset.speed = PulseDiv.default.get Motor.reset.speed ∧
    decode 0x0400020002#40 = .ok (.setSteps 2 2) ∧ (1 : Int) ≤ 2 ∧
    (∀ u ∈ (statesAfter (3 + 1) moveStart).take 3, ¬ u.takesSetSteps) ∧
    statesAfter (3 + 1) moveStart ≠ [] := by
  have busy : ∀ u ∈ (statesAfter (3 + 1) moveStart).take 3, u.left.running = true := by decide
  refine ⟨rfl, by decide, by decide, fun u hu h => ?_, by decide⟩
  exact Bool.false_ne_true (h.2.1.symm.trans (busy u hu))

/-- Two sides that move together, a step that keeps them so, and a `SET_STEPS` that puts them so. -/
theorem witness_sides_together :
    (going (fwd 5#16) (fwd 5#16) [.tick]).Together ∧ ¬ (going (fwd 5#16) (fwd 5#16) [.tick]).takesSetSteps ∧
    (∃ t, step (going (fwd 5#16) (fwd 5#16) [.tick]) = .next t) ∧
    State.reset.left.running = false ∧ State.reset.right.running = false ∧
    State.reset.pulseDiv.get State.reset.left.speed = State.reset.pulseDiv.get State.reset.right.speed :=
  ⟨⟨rfl, rfl, fun _ => ⟨rfl, rfl⟩⟩, fun h => Bool.false_ne_true h.2.1.symm, ⟨_, rfl⟩, rfl, rfl, rfl⟩

/-- The clauses on the ticks left: a tick on a running side, a rejected `SET_STEPS` at the side's idle sibling, an accepted
one with the counts 1 and 0, `ENABLE 0`, and `Reset`. -/
theorem witness_ticks_left :
    ((both [.tick]).Ready ∧ (both [.tick]).Inv ∧ (∃ t, step (both [.tick]) = .next t) ∧
      (both [.tick]).sparesMoves = true ∧ (both [.tick]).ticksLeft .left = 5) ∧
    (going (fwd 1#16) Motor.reset [.cmd 0x0400050005#40]).sparesMoves = true ∧
    ((State.reset.issue 0x0400010000#40).sparesMoves = false ∧
      (State.reset.issue 0x0400010000#40).nextCommand = some (.setSteps 1 0)) ∧
    (both [.cmd 0x0100000000#40]).nextCommand = some (.enable false) ∧
    (both [.reset]).nextEvent = some .reset :=
  ⟨⟨both_ready _, both_inv _, ⟨_, rfl⟩, by decide, by decide⟩, by decide, ⟨by decide, by decide⟩, by decide, rfl⟩

theorem witness_pause :
    (both (.cmd 0x0200000000#40 :: ([.tick, .cmd 0x0600000000#40] ++ .cmd 0x0200000001#40 :: []))).Ready ∧
    decode 0x0200000000#40 = .ok (.setRunning false) ∧ decode 0x0200000001#40 = .ok (.setRunning true) ∧
    ∀ e ∈ [Event.tick, .cmd 0x0600000000#40], e = .tick ∨ e.command = some .status :=
  ⟨both_ready _, by decide, by decide, by decide⟩

theorem witness_disable :
    (both [.cmd 0x0100000000#40, .tick, .cmd 0x0100000001#40]).Ready ∧
    decode 0x0100000000#40 = .ok (.enable false) ∧
    ∀ e ∈ [Event.tick, .cmd 0x0100000001#40].take 2,
      e = .tick ∨ ∃ i, e.command = some i ∧ ∀ l r, i ≠ .setSteps l r := by
  refine ⟨both_ready _, by decide, fun e he => ?_⟩
  have : e = .tick ∨ e = .cmd 0x0100000001#40 := by simpa using he
  rcases this with rfl | rfl
  · exact .inl rfl
  · exact .inr ⟨.enable true, by decide, fun l r => by simp⟩

/-- With `witness_move`, the hypotheses of the run clause; and those of the clause on resolutions. -/
theorem witness_move_duration : 0 < board.tickHz ∧ 1 ≤ (2 : Nat) := ⟨board_legal.2.2.1, by decide⟩

end Sys2Proof.Tests
end

section
/-! What one step answers, read forwards: the dispatch on the schedule (R15, R48), a command word that a ready state
takes, and the idle step (log 2). `step_cases` is the same reading backwards. -/

namespace Sys2Proof.Machine

/-- A state that is not faulted takes the first event of its schedule. -/
theorem step_of_event {s : State} {e : Event} {rest : List Event} (hf : s.faulted = false)
    (hu : s.upcoming = e :: rest) : step s = onEvent e (s.deliver rest) := by
  simp [step, react, takeEvent, hf, hu]

theorem step_of_no_event {s : State} (hf : s.faulted = false) (hu : s.upcoming = []) :
    step s = .next s.idle := by
  simp [step, react, takeEvent, hf, hu]

/-- After the first `Reset`, a word that is not reserved is admitted (R69, R162). -/
theorem onCommand_of_decode {s : State} {w : CmdWord} {i : Instr} (hr : s.resetDone = true)
    (hd : decode w = .ok i) : onCommand w s = exec i s := by
  simp [onCommand, hr, hd]

theorem step_of_command {s : State} {w : CmdWord} {rest : List Event} {i : Instr} (hs : s.Ready)
    (hu : s.upcoming = .cmd w :: rest) (hd : decode w = .ok i) : step s = exec i (s.deliver rest) := by
  obtain ⟨hf, hr⟩ := hs
  calc step s
    _ = onCommand w (s.deliver rest) := step_of_event hf hu
    _ = exec i (s.deliver rest) := onCommand_of_decode hr hd

/-- Where nothing is to come, the idle step only ends the output of the event before it. -/
theorem State.idle_of_no_event {s : State} (hu : s.upcoming = []) :
    s.idle = { s with pulses := Pulses.empty, response := none } := by
  simp [State.idle, State.deliver, hu]

/-- Settles O7: the step delivers the word, and a ready state admits it. -/
theorem stepRunsTheDecodedCommand : Obligations.StepRunsTheDecodedCommand :=
  fun _ _ _ _ hs hu hd => step_of_command hs hu hd

/-- Settles O9: the step is the idle step, which leaves all but the output. -/
theorem noEventNoEffect : Obligations.NoEventNoEffect := fun s hf hu =>
  calc step s
    _ = .next s.idle := step_of_no_event hf hu
    _ = .next { s with pulses := Pulses.empty, response := none } :=
      congrArg Host.Outcome.next (State.idle_of_no_event hu)

end Sys2Proof.Machine
end

section
/-! What one step does to one side's record, said once (`SideStep`, `step_side`): the facts of a tick on one side, of a
command's counts and of the fields a step carries, and the one case list that the state's invariants follow from. -/

namespace Sys2Proof.Machine

/-! ### Words and counts -/

/-- Counting up below the top of the 16-bit range does not wrap (R12, R82). -/
theorem sext16_add_one {x : Word16} (h : sext16 x < 32767) : sext16 (x + 1#16) = sext16 x + 1 := by
  have hlow := BitVec.le_toInt x
  simp only [sext16, BitVec.toInt_add, Int.bmod_def] at *
  norm_num at *
  omega

/-- Counting down above the bottom of the 16-bit range does not wrap (R12, R83). -/
theorem sext16_sub_one {x : Word16} (h : -32768 < sext16 x) : sext16 (x - 1#16) = sext16 x - 1 := by
  have hhigh := BitVec.toInt_lt (x := x)
  simp only [sext16, BitVec.toInt_sub, Int.bmod_def] at *
  norm_num at *
  omega

theorem sext16_le (x : Word16) : sext16 x ≤ 32767 :=
  ((countInRange_iff _).1 (countInRange_sext16 x)).2

theorem sext16_ne_zero {x : Word16} (h : x ≠ 0#16) : sext16 x ≠ 0 :=
  fun h0 => h (BitVec.eq_of_toInt_eq h0)

/-- The counts of a decoded `SET_STEPS` are 16-bit fields, so they fit (R66): only the arm of its opcode gives one. -/
theorem countInRange_of_decode {w : CmdWord} {l r : Int} (h : decode w = .ok (.setSteps l r)) (side : Side) :
    countInRange (countFor l r side) = true := by
  have hfields : readFS (operandField w) = (l, r) := by
    unfold decode operandOr at h
    grind
  cases hfields
  cases side <;> exact countInRange_sext16 _

/-! ### A tick, seen from one side -/

/-- The engine's work on a side reads the shared fields and that side's record alone (R81 to R85, R87). -/
theorem State.engineSide_congr {s u : State} {side : Side} (he : s.enable = u.enable) (hg : s.runGate = u.runGate)
    (hd : s.pulseDiv = u.pulseDiv) (hm : s.motor side = u.motor side)
    (hp : s.pulses.has side = u.pulses.has side) :
    (s.engineSide side).motor side = (u.engineSide side).motor side ∧
    (s.engineSide side).pulses.has side = (u.engineSide side).pulses.has side := by
  have ha : s.advances side = u.advances side := by simp [State.advances, State.gateOpen, he, hg, hm]
  unfold State.engineSide
  rw [ha, hd, hm]
  dsimp only
  split
  · split
    · unfold State.pulseTick
      simp only [State.motor_setMotor]
      split <;> simp [hp]
    · simp [hp]
  · exact ⟨hm, hp⟩

/-- A tick does to each side what the engine does to it alone (R86, R87). -/
theorem State.tick_side (s : State) (side : Side) :
    s.tick.motor side = (s.engineSide side).motor side ∧
    s.tick.pulses.has side = (s.engineSide side).pulses.has side := by
  cases side with
  | left =>
    obtain ⟨-, -, -, -, -, -, -, hm, hp⟩ := (s.engineSide .left).engineSide_frame .right
    exact ⟨hm, hp⟩
  | right =>
    obtain ⟨he, hg, -, -, hd, -, -, hm, hp⟩ := s.engineSide_frame .left
    exact State.engineSide_congr he hg hd hm hp

theorem State.running_of_advances {s : State} {side : Side} (h : s.advances side = true) :
    (s.motor side).running = true := by
  simp only [State.advances, Bool.and_eq_true] at h
  exact h.2

/-! ### What every step keeps, and the two shared flags -/

/-- `ENABLE` and `RUN_GATE` are each written by one command (R95, R99). -/
theorem exec_flags {i : Instr} {s t : State} (h : exec i s = .next t) :
    (t.enable = s.enable ∨ ∃ b, i = .enable b) ∧ (t.runGate = s.runGate ∨ ∃ b, i = .setRunning b) := by
  cases i with
  | enable b => cases b <;> cases h <;> simp [State.stopBoth]
  | setRunning b => cases h; simp
  | setDirection side d =>
    simp only [exec, execSetDirection, reject] at h
    split at h <;> cases h <;> simp
  | setSteps l r =>
    simp only [exec, execSetSteps, reject] at h
    split at h <;> cases h <;> simp
  | setSpeed side p =>
    simp only [exec, execSetSpeed, reject] at h
    split at h <;> cases h <;> simp
  | status => cases h; simp

/-- Over every step but a `Reset`, each shared flag has one writer (R41). -/
theorem step_flags {s t : State} (h : step s = .next t) (hr : s.nextEvent ≠ some .reset) :
    (t.enable = s.enable ∨ ∃ b, s.nextCommand = some (.enable b)) ∧
    (t.runGate = s.runGate ∨ ∃ b, s.nextCommand = some (.setRunning b)) := by
  obtain ⟨-, ⟨hu, rfl⟩ | ⟨rest, hu, rfl⟩ | ⟨rest, hu, rfl⟩ | ⟨rest, hu, -, rfl⟩ | ⟨w, rest, i, hu, -, hd, hx⟩⟩ :=
    step_cases h
  · simp
  · exact absurd (nextEvent_of_upcoming hu) hr
  · simp
  · obtain ⟨he, hg, -⟩ := (s.deliver rest).tick_frame
    exact ⟨.inl he, .inl hg⟩
  · simpa [nextCommand_of_upcoming hu hd] using exec_flags hx

/-- No step writes the parameter `PULSE_DIV` (log 4), and only a `Reset` completes a reset (log 6). -/
theorem step_pulseDiv_resetDone {s t : State} (h : step s = .next t) :
    t.pulseDiv = s.pulseDiv ∧ (s.nextEvent ≠ some .reset → t.resetDone = s.resetDone) := by
  obtain ⟨-, ⟨hu, rfl⟩ | ⟨rest, hu, rfl⟩ | ⟨rest, hu, rfl⟩ | ⟨rest, hu, -, rfl⟩ | ⟨w, rest, i, hu, -, hd, hx⟩⟩ :=
    step_cases h
  · simp
  · exact ⟨rfl, fun hr => absurd (nextEvent_of_upcoming hu) hr⟩
  · simp
  · obtain ⟨-, -, -, hdone, hdiv, -⟩ := (s.deliver rest).tick_frame
    exact ⟨hdiv, fun _ => hdone⟩
  · obtain ⟨-, hdone, hdiv, -⟩ := exec_carries hx
    exact ⟨hdiv, fun _ => hdone⟩

/-- The step of a `Reset` is the reset of the state it is delivered to (R160). -/
theorem step_of_reset {s : State} {rest : List Event} (hf : s.faulted = false) (hu : s.upcoming = .reset :: rest) :
    step s = .next (s.deliver rest).applyReset :=
  step_of_event hf hu

/-- After the step of a `Reset` each record is at its reset values (R42). -/
theorem motor_of_step_reset {s t : State} (h : step s = .next t) (hr : s.nextEvent = some .reset) (side : Side) :
    t.motor side = Motor.reset := by
  obtain ⟨rest, hu⟩ := List.head?_eq_some_iff.1 hr
  have ht := (step_of_reset (step_cases h).1 hu).symm.trans h
  cases ht
  exact State.motor_applyReset _ side

/-! ### What a step does to one side's record -/

/-- Everything a step other than a `Reset` can do to the record of one side, with the event that did it (R41): nothing; a
tick's phase step, pulse, or stop without a pulse (R81 to R85); the stop of `ENABLE 0` (R95); one field of an idle side
(R106, R108); or, with both sides idle, the arming or the cleared count of `SET_STEPS` (R110). -/
inductive SideStep (s t : State) (side : Side) : Prop
  | same (hm : t.motor side = s.motor side)
  | count (he : s.nextEvent = some .tick) (hrun : (s.motor side).running = true)
      (hdue : isPulseTick s.pulseDiv (s.motor side).speed ((s.motor side).phase + 1#16) = false)
      (hm : t.motor side = { s.motor side with phase := (s.motor side).phase + 1#16 })
  | pulse (he : s.nextEvent = some .tick) (hp : t.pulses.has side = true) (hrun : (s.motor side).running = true)
      (hm : t.motor side = { (s.motor side).loadLatches.countDown with phase := 0#16 })
  | dry (he : s.nextEvent = some .tick) (hm : t.motor side = { (s.motor side).stop with phase := 0#16 })
  | disable (hc : s.nextCommand = some (.enable false)) (hm : t.motor side = (s.motor side).stop)
  | direction (d : Direction) (hc : s.nextCommand = some (.setDirection side d))
      (hidle : (s.motor side).running = false) (hm : t.motor side = { s.motor side with direction := d })
  | speed (p : Resolution) (hc : s.nextCommand = some (.setSpeed side p))
      (hidle : (s.motor side).running = false) (hm : t.motor side = { s.motor side with speed := p })
  | arm (l r : Int) (hc : s.nextCommand = some (.setSteps l r)) (hl : s.left.running = false)
      (hr : s.right.running = false) (hpos : 0 < countFor l r side)
      (hfit : countInRange (countFor l r side) = true) (hm : t.motor side = (s.motor side).arm (countFor l r side))
  | clear (l r : Int) (hc : s.nextCommand = some (.setSteps l r)) (hl : s.left.running = false)
      (hr : s.right.running = false) (hm : t.motor side = (s.motor side).clearSteps)

theorem State.running_eq_false_of_idle {s : State} (hl : s.left.running = false) (hr : s.right.running = false)
    (side : Side) : (s.motor side).running = false := by
  cases side
  · exact hl
  · exact hr

theorem sideStep_of_tick {s : State} {rest : List Event} (hu : s.upcoming = .tick :: rest) (side : Side) :
    SideStep s (s.deliver rest).tick side := by
  have he := nextEvent_of_upcoming hu
  have ⟨hm, hp⟩ := (s.deliver rest).tick_side side
  obtain ⟨-, h⟩ | ⟨ha, hdue, h⟩ | ⟨ha, -, -, h⟩ | ⟨-, -, -, h⟩ := (s.deliver rest).engineSide_cases side <;>
    rw [h] at hm hp
  · exact .same (by simpa using hm)
  · exact .count he (by simpa using State.running_of_advances ha) (by simpa using hdue) (by simpa using hm)
  · exact .pulse he (by simpa using hp) (by simpa using State.running_of_advances ha) (by simpa using hm)
  · exact .dry he (by simpa using hm)

theorem sideStep_of_command {s t : State} {w : CmdWord} {rest : List Event} {i : Instr}
    (hu : s.upcoming = .cmd w :: rest) (hd : decode w = .ok i) (hx : exec i (s.deliver rest) = .next t)
    (side : Side) : SideStep s t side := by
  have hc := nextCommand_of_upcoming hu hd
  obtain hm | ⟨rfl, hm⟩ | ⟨d, rfl, hi, hm⟩ | ⟨p, rfl, hi, hm⟩ | ⟨l, r, v, rfl, hv, hl, hr, hm⟩ := exec_side hx side <;>
    rw [State.motor_deliver] at hm
  · exact .same hm
  · exact .disable hc hm
  · exact .direction d hc (by simpa using hi) hm
  · exact .speed p hc (by simpa using hi) hm
  · obtain rfl : v = countFor l r side := by cases side <;> exact hv
    obtain ⟨hpos, ha⟩ | ⟨-, ha⟩ := (s.motor side).loadCount_cases (countFor l r side)
    · exact .arm l r hc hl hr hpos (countInRange_of_decode hd side) (hm.trans ha)
    · exact .clear l r hc hl hr (hm.trans ha)

/-- The records that a `Reset` writes are `motor_of_step_reset`'s. -/
theorem step_side {s t : State} (h : step s = .next t) (hr : s.nextEvent ≠ some .reset) (side : Side) :
    SideStep s t side := by
  obtain ⟨-, ⟨hu, rfl⟩ | ⟨rest, hu, rfl⟩ | ⟨rest, hu, rfl⟩ | ⟨rest, hu, -, rfl⟩ | ⟨w, rest, i, hu, -, hd, hx⟩⟩ :=
    step_cases h
  · exact .same (State.motor_idle s side)
  · exact absurd (nextEvent_of_upcoming hu) hr
  · exact .same (by simp)
  · exact sideStep_of_tick hu side
  · exact sideStep_of_command hu hd hx side

end Sys2Proof.Machine
end

section
/-! The invariant R34 to R37: each change of a record keeps it, so every step does and every run does. -/

namespace Sys2Proof.Machine

theorem default_pulseDiv_legal : PulseDiv.default.Legal := by
  intro sp
  cases sp <;> decide

/-- Of an idle record the invariant says only that its count is not negative (R34). -/
theorem Motor.inv_of_idle {div : PulseDiv} {m : Motor} (hrun : m.running = false) (hsteps : 0 ≤ sext16 m.steps) :
    m.Inv div := by
  simp [Motor.Inv, hrun, hsteps, sext16_le]

theorem Motor.reset_inv (div : PulseDiv) : Motor.reset.Inv div :=
  Motor.inv_of_idle rfl (by decide)

/-- A side is armed with a positive count that fits, at phase 0 and with its latches loaded (R110). -/
theorem Motor.arm_inv {div : PulseDiv} {m : Motor} {v : Int} (hdiv : div.Legal) (hpos : 0 < v)
    (hfit : countInRange v = true) : (m.arm v).Inv div := by
  have hsteps : sext16 (m.arm v).steps = v := sext16_toWord16 hfit
  have hlegal := (hdiv m.speed).1
  have hphase : (0 : Int) < div.get m.speed := by omega
  exact ⟨⟨by omega, sext16_le _⟩, fun _ => by omega, fun _ => ⟨le_rfl, hphase⟩, fun _ => ⟨rfl, rfl⟩⟩

/-- A phase step that is not due stays below the divisor, and cannot wrap (R82). -/
theorem Motor.count_inv {div : PulseDiv} {m : Motor} (hdiv : div.Legal) (h : m.Inv div) (hrun : m.running = true)
    (hdue : isPulseTick div m.speed (m.phase + 1#16) = false) :
    ({ m with phase := m.phase + 1#16 } : Motor).Inv div := by
  obtain ⟨hrange, hpos, hphase, hlatch⟩ := h
  have hlegal := (hdiv m.speed).2
  obtain ⟨hlow, hhigh⟩ := hphase hrun
  have hnext : sext16 (m.phase + 1#16) = sext16 m.phase + 1 := sext16_add_one (by omega)
  have hnonneg : 0 ≤ sext16 (m.phase + 1#16) := by omega
  have hbelow : sext16 (m.phase + 1#16) < (div.get m.speed : Int) := by simpa [isPulseTick] using hdue
  exact ⟨hrange, hpos, fun _ => ⟨hnonneg, hbelow⟩, hlatch⟩

/-- A pulse takes one step off a positive count, and the side runs on only while steps are left (R83, R84). -/
theorem Motor.pulse_inv {div : PulseDiv} {m : Motor} (hdiv : div.Legal) (h : m.Inv div) (hrun : m.running = true) :
    ({ m.loadLatches.countDown with phase := 0#16 } : Motor).Inv div := by
  have hpos : 1 ≤ sext16 m.steps := h.2.1 hrun
  have hlegal := (hdiv m.speed).1
  have hleft : sext16 (m.steps - 1#16) = sext16 m.steps - 1 := sext16_sub_one (by omega)
  have hnonneg : 0 ≤ sext16 (m.steps - 1#16) := by omega
  by_cases hlast : m.steps - 1#16 = 0#16
  · exact Motor.inv_of_idle (by simp [runningAfter, hlast]) hnonneg
  · have hmore : 1 ≤ sext16 (m.steps - 1#16) := by
      have hne := sext16_ne_zero hlast
      omega
    have hphase : (0 : Int) < div.get m.speed := by omega
    exact ⟨⟨hnonneg, sext16_le _⟩, fun _ => hmore, fun _ => ⟨le_rfl, hphase⟩, fun _ => ⟨rfl, rfl⟩⟩

/-- Each of the changes a step can make to a record keeps the record's invariant. -/
theorem SideStep.inv {s t : State} {side : Side} (h : SideStep s t side) (hdiv : s.pulseDiv.Legal)
    (hs : (s.motor side).Inv s.pulseDiv) : (t.motor side).Inv s.pulseDiv := by
  have hsteps : 0 ≤ sext16 (s.motor side).steps := hs.1.1
  cases h with
  | same hm => exact hm ▸ hs
  | count _ hrun hdue hm => exact hm ▸ Motor.count_inv hdiv hs hrun hdue
  | pulse _ _ hrun hm => exact hm ▸ Motor.pulse_inv hdiv hs hrun
  | dry _ hm => exact hm ▸ Motor.inv_of_idle rfl hsteps
  | disable _ hm => exact hm ▸ Motor.inv_of_idle rfl hsteps
  | direction d _ hidle hm => exact hm ▸ Motor.inv_of_idle hidle hsteps
  | speed p _ hidle hm => exact hm ▸ Motor.inv_of_idle hidle hsteps
  | arm l r _ _ _ hpos hfit hm => exact hm ▸ Motor.arm_inv hdiv hpos hfit
  | clear l r _ hl hr hm =>
    have hidle := State.running_eq_false_of_idle hl hr side
    exact hm ▸ Motor.inv_of_idle hidle le_rfl

theorem step_inv {s t : State} (hs : s.Inv) (h : step s = .next t) : t.Inv := by
  obtain ⟨hdiv, hsides⟩ := hs
  obtain ⟨hpd, hdone⟩ := step_pulseDiv_resetDone h
  refine ⟨hpd ▸ hdiv, fun ht side => ?_⟩
  rw [hpd]
  by_cases hr : s.nextEvent = some .reset
  · exact motor_of_step_reset h hr side ▸ Motor.reset_inv _
  · exact (step_side h hr side).inv hdiv (hsides (hdone hr ▸ ht) side)

/-- A run that answers a state keeps what every step keeps. -/
theorem run_induction {P : State → Prop} (hstep : ∀ s t, P s → step s = .next t → P t) (k : Nat) :
    ∀ s t : State, P s → Host.Core.run Sys2Proof.core k s = .next t → P t := by
  induction k with
  | zero =>
    intro s t hs h
    cases h
    exact hs
  | succ k ih =>
    intro s t hs h
    cases hu : step s with
    | next u => exact ih u t (hstep s u hs hu) (run_succ_of_next k hu ▸ h)
    | fault f => simp [Host.Core.run, show Sys2Proof.core.step s = .fault f from hu] at h
    | refused r => simp [Host.Core.run, show Sys2Proof.core.step s = .refused r from hu] at h

theorem State.inv_of_reset_motors {s : State} (hdiv : s.pulseDiv.Legal) (hm : ∀ side, s.motor side = Motor.reset) :
    s.Inv :=
  ⟨hdiv, fun _ side => hm side ▸ Motor.reset_inv _⟩

/-- Before the first `Reset` the invariant says nothing of the records (R162). -/
theorem State.powerUp_inv (en g : Bool) (l r : Motor) {div : PulseDiv} (es : List Event) (hdiv : div.Legal) :
    (State.powerUp en g l r div es).Inv :=
  ⟨hdiv, nofun⟩

/-- Settles O32: a `Reset` restores the invariant, and every other change of a record keeps it (`step_inv`). -/
theorem stepKeepsInvariant : Obligations.StepKeepsInvariant := fun _ _ => step_inv

/-- Settles O31: the reset records are idle with no step left, and power-up comes before any `Reset`. -/
theorem invariantHoldsAtReset : Obligations.InvariantHoldsAtReset := by
  refine ⟨State.inv_of_reset_motors default_pulseDiv_legal ?_, fun div es hdiv => State.inv_of_reset_motors hdiv ?_,
    fun en g l r div es hdiv => State.powerUp_inv en g l r es hdiv⟩
  · exact fun side => by cases side <;> rfl
  · exact fun side => by cases side <;> rfl

/-- Settles O33, by induction over the run: the invariant and the value of `PULSE_DIV` are kept by every step. -/
theorem reachableStatesMeetInvariants : Obligations.ReachableStatesMeetInvariants := by
  intro en g l r div es k t hdiv hrun hdone
  obtain ⟨⟨-, hsides⟩, hpd⟩ : t.Inv ∧ t.pulseDiv = div :=
    run_induction (P := fun s => s.Inv ∧ s.pulseDiv = div)
      (fun s u hs h => ⟨step_inv hs.1 h, (step_pulseDiv_resetDone h).1.trans hs.2⟩)
      k _ t ⟨State.powerUp_inv en g l r es hdiv, rfl⟩ hrun
  exact hpd ▸ hsides hdone

end Sys2Proof.Machine
end

section
/-! The other statements of spec/10_state.md, read off `step_side` case by case. -/

namespace Sys2Proof.Machine

/-- At the default `PULSE_DIV` the first advancing tick is a pulse tick (R82, R86). -/
theorem isPulseTick_default (sp : Resolution) : isPulseTick ⟨1, 1, 1, 1⟩ sp (0#16 + 1#16) = true := by
  cases sp <;> decide

/-- Settles O34: a phase step alone could move a phase off 0, and at the default divisor it is a pulse tick instead. -/
theorem defaultPhaseStaysZero : Obligations.DefaultPhaseStaysZero := by
  refine ⟨fun side => by cases side <;> rfl, fun s t hdiv hs h side => ?_⟩
  by_cases hr : s.nextEvent = some .reset
  · rw [motor_of_step_reset h hr side]
    rfl
  · have hphase := hs side
    cases step_side h hr side with
    | count _ _ hdue _ => simp only [hdiv, hphase, isPulseTick_default, Bool.true_eq_false] at hdue
    | pulse _ _ _ hm => rw [hm]
    | dry _ hm => rw [hm]
    | arm l r _ _ _ _ _ hm => rw [hm, Motor.arm_phase]
    | same hm | disable _ hm | direction _ _ _ hm | speed _ _ _ hm | clear _ _ _ _ _ hm =>
      rw [hm]
      exact hphase

/-- Over every step but a `Reset`, the set-up of a side is written by its own commands while it is idle (R41, R105). -/
theorem SideStep.setup {s t : State} {side : Side} (h : SideStep s t side) :
    ((t.motor side).direction ≠ (s.motor side).direction →
      ∃ d, s.nextCommand = some (.setDirection side d) ∧ (s.motor side).running = false) ∧
    ((t.motor side).speed ≠ (s.motor side).speed →
      ∃ p, s.nextCommand = some (.setSpeed side p) ∧ (s.motor side).running = false) := by
  cases h with
  | direction d hc hidle hm => exact ⟨fun _ => ⟨d, hc, hidle⟩, fun hne => absurd (by rw [hm]) hne⟩
  | speed p hc hidle hm => exact ⟨fun hne => absurd (by rw [hm]) hne, fun _ => ⟨p, hc, hidle⟩⟩
  | same hm | count _ _ _ hm | pulse _ _ _ hm | dry _ hm | disable _ hm | arm _ _ _ _ _ _ _ hm
  | clear _ _ _ _ _ hm =>
    rw [hm]
    exact ⟨fun hne => absurd rfl hne, fun hne => absurd rfl hne⟩

/-- Settles O35: the only writers of `direction` and `speed` take effect on an idle side. -/
theorem runningSideKeepsItsSetup : Obligations.RunningSideKeepsItsSetup := by
  intro s t side hrun h hr
  obtain ⟨hdir, hspeed⟩ := (step_side h hr side).setup
  constructor <;> by_contra hne
  · obtain ⟨-, -, hidle⟩ := hdir hne
    simp [hrun] at hidle
  · obtain ⟨-, -, hidle⟩ := hspeed hne
    simp [hrun] at hidle

/-- Over every step but a `Reset`, only an accepted `SET_STEPS` with a positive count starts a side (R25, R110). -/
theorem SideStep.starts {s t : State} {side : Side} (h : SideStep s t side) (hidle : (s.motor side).running = false)
    (hrun : (t.motor side).running = true) :
    ∃ l r, s.nextCommand = some (.setSteps l r) ∧ 0 < countFor l r side ∧
      s.left.running = false ∧ s.right.running = false := by
  cases h with
  | arm l r hc hl hr hpos _ _ => exact ⟨l, r, hc, hpos, hl, hr⟩
  | pulse _ _ hwas _ => simp [hidle] at hwas
  | same hm | count _ _ _ hm | dry _ hm | disable _ hm | direction _ _ _ hm | speed _ _ _ hm | clear _ _ _ _ _ hm =>
    simp [hm, hidle] at hrun

/-- Over every step but a `Reset`, a side stops by a tick or by `ENABLE 0` (R25, R84, R85, R95). -/
theorem SideStep.stops {s t : State} {side : Side} (h : SideStep s t side) (hrun : (s.motor side).running = true)
    (hidle : (t.motor side).running = false) :
    s.nextEvent = some .tick ∨ s.nextCommand = some (.enable false) := by
  cases h with
  | count he | pulse he | dry he => exact .inl he
  | disable hc => exact .inr hc
  | same hm | direction _ _ _ hm | speed _ _ _ hm | arm _ _ _ _ _ _ _ hm | clear _ _ _ _ _ hm =>
    simp [hm, hrun] at hidle

/-- Over every step but a `Reset`, a count is written by a pulse of its side or by an accepted `SET_STEPS` (R28). -/
theorem SideStep.steps_writers {s t : State} {side : Side} (h : SideStep s t side)
    (hne : (t.motor side).steps ≠ (s.motor side).steps) :
    (s.nextEvent = some .tick ∧ t.pulses.has side = true) ∨
    ∃ l r, s.nextCommand = some (.setSteps l r) ∧ s.left.running = false ∧ s.right.running = false := by
  cases h with
  | pulse he hp => exact .inl ⟨he, hp⟩
  | arm l r hc hl hr | clear l r hc hl hr => exact .inr ⟨l, r, hc, hl, hr⟩
  | same hm | count _ _ _ hm | dry _ hm | disable _ hm | direction _ _ _ hm | speed _ _ _ hm => simp [hm] at hne

/-- Over every step but a `Reset`, a phase is written by a tick or by arming (R29). -/
theorem SideStep.phase_writers {s t : State} {side : Side} (h : SideStep s t side)
    (hne : (t.motor side).phase ≠ (s.motor side).phase) :
    s.nextEvent = some .tick ∨ ∃ l r, s.nextCommand = some (.setSteps l r) ∧ 0 < countFor l r side := by
  cases h with
  | count he | pulse he | dry he => exact .inl he
  | arm l r hc _ _ hpos => exact .inr ⟨l, r, hc, hpos⟩
  | same hm | disable _ hm | direction _ _ _ hm | speed _ _ _ hm | clear _ _ _ _ _ hm => simp [hm] at hne

/-- Over every step but a `Reset`, a side's latches are written on its pulse or by its arming (R30, R31). -/
theorem SideStep.latch_writers {s t : State} {side : Side} (h : SideStep s t side)
    (hne : (t.motor side).dirOut ≠ (s.motor side).dirOut ∨ (t.motor side).msOut ≠ (s.motor side).msOut) :
    (s.nextEvent = some .tick ∧ t.pulses.has side = true) ∨
    ∃ l r, s.nextCommand = some (.setSteps l r) ∧ 0 < countFor l r side ∧
      s.left.running = false ∧ s.right.running = false := by
  cases h with
  | pulse he hp => exact .inl ⟨he, hp⟩
  | arm l r hc hl hr hpos => exact .inr ⟨l, r, hc, hpos, hl, hr⟩
  | same hm | count _ _ _ hm | dry _ hm | disable _ hm | direction _ _ _ hm | speed _ _ _ hm | clear _ _ _ _ _ hm =>
    simp [hm] at hne

/-- Settles O36: the writers of the two shared flags, and those of each field of a record. -/
theorem fieldWriters : Obligations.FieldWriters := by
  intro s t h hr
  obtain ⟨hen, hgate⟩ := step_flags h hr
  refine ⟨hen.resolve_left, hgate.resolve_left, fun side => ?_⟩
  have hside := step_side h hr side
  obtain ⟨hdir, hspeed⟩ := hside.setup
  exact ⟨hdir, hspeed, hside.starts, hside.stops, hside.steps_writers, hside.phase_writers, hside.latch_writers⟩

end Sys2Proof.Machine
end

section
/-! `Reset` and `SetupFailed` (R42, R43, R138, R141, R160, R161). -/

namespace Sys2Proof.Machine

/-- The lines after a `Reset` are those of a disabled driver and of reset latches (R138). -/
theorem State.lines_applyReset (bd : Board) (s : State) :
    lineLevel bd s.applyReset .en = !bd.enLevel ∧
    ∀ side, lineLevel bd s.applyReset (.step side) = false ∧
      lineLevel bd s.applyReset (.dir side) = bd.dirLevel side .forward ∧
      lineLevel bd s.applyReset (.ms1 side) = (bd.msPinCode.get .full).getLsbD 0 ∧
      lineLevel bd s.applyReset (.ms2 side) = (bd.msPinCode.get .full).getLsbD 1 := by
  simp [lineLevel, enLine, dirLine, msCode, Motor.reset]

/-- Settles O13: a state that is not faulted takes the `Reset`, and `applyReset` writes each field. -/
theorem resetWritesEveryField : Obligations.ResetWritesEveryField := by
  intro s rest hf hu
  refine ⟨_, step_of_reset hf hu, rfl, rfl, fun side => ?_, fun side => ?_, fun bd => State.lines_applyReset bd _⟩
  · rw [State.motor_applyReset]
    exact ⟨rfl, rfl, rfl, rfl, rfl, rfl, rfl⟩
  · rw [State.applyReset_pulses, Pulses.has_empty]

/-- A faulted state takes no further event (R43, log 8). -/
theorem step_of_faulted {s : State} (h : s.faulted = true) : step s = .fault .setupFailed := by
  simp [step, react, h]

theorem step_of_setupFailed {s : State} {rest : List Event} (hf : s.faulted = false)
    (hu : s.upcoming = .setupFailed :: rest) : step s = .next (raiseSetupFailed (s.deliver rest)) :=
  step_of_event hf hu

/-- No other event sets `faulted` (R43). -/
theorem nextEvent_of_step_faulted {s t : State} (h : step s = .next t) (ht : t.faulted = true) :
    s.nextEvent = some .setupFailed := by
  obtain ⟨hf, hcases⟩ := step_cases h
  have hkept (hk : t.faulted = s.faulted) : s.nextEvent = some .setupFailed := by simp [hk, hf] at ht
  obtain ⟨-, rfl⟩ | ⟨rest, -, rfl⟩ | ⟨rest, hu, -⟩ | ⟨rest, -, -, rfl⟩ | ⟨w, rest, i, -, -, -, hx⟩ := hcases
  · exact hkept rfl
  · cases ht
  · exact nextEvent_of_upcoming hu
  · obtain ⟨-, -, hk, -⟩ := (s.deliver rest).tick_frame
    exact hkept hk
  · obtain ⟨hk, -⟩ := exec_carries hx
    exact hkept hk

/-- Settles O11: `SetupFailed` alone sets `faulted`, and no step leaves a faulted state. -/
theorem setupFailureHaltsTheBlock : Obligations.SetupFailureHaltsTheBlock :=
  ⟨rfl, fun _ _ _ _ _ _ => rfl, fun _ _ hf hu => ⟨_, step_of_setupFailed hf hu, raiseSetupFailed_faulted _⟩,
    fun _ _ => nextEvent_of_step_faulted, fun _ => step_of_faulted⟩

end Sys2Proof.Machine
end

section
/-! The schedule along one step (R51, R145): what it loses, and the record that a `Reset` has completed (R162). -/

namespace Sys2Proof.Machine

/-- Whatever the event, its step leaves the rest of the schedule as it was (R51, R145). -/
theorem step_upcoming {s t : State} (h : step s = .next t) : t.upcoming = s.upcoming.tail := by
  obtain ⟨-, ⟨hu, rfl⟩ | ⟨rest, hu, rfl⟩ | ⟨rest, hu, rfl⟩ | ⟨rest, hu, -, rfl⟩ | ⟨w, rest, i, hu, -, -, hx⟩⟩ :=
    step_cases h <;> rw [hu, List.tail]
  · exact State.idle_upcoming s
  · exact State.applyReset_upcoming _
  · exact raiseSetupFailed_upcoming _
  · obtain ⟨-, -, -, -, -, hrest, -⟩ := (s.deliver rest).tick_frame
    exact hrest
  · obtain ⟨-, -, -, hrest, -⟩ := exec_carries hx
    exact hrest

/-- After the step of a `Reset` its completion is on record (R162, log 6). -/
theorem resetDone_of_step_reset {s t : State} (h : step s = .next t) (hr : s.nextEvent = some .reset) :
    t.resetDone = true := by
  obtain ⟨rest, hu⟩ := List.head?_eq_some_iff.1 hr
  have ht := (step_of_reset (step_cases h).1 hu).symm.trans h
  cases ht
  exact State.applyReset_resetDone _

/-- Settles O8: the schedule by `step_upcoming`, and the record of a `Reset` by whether this event is one. -/
theorem stepTakesOneEvent : Obligations.StepTakesOneEvent := by
  intro s t h
  obtain ⟨hdiv, hkept⟩ := step_pulseDiv_resetDone h
  refine ⟨step_upcoming h, hdiv, ?_⟩
  by_cases hr : s.nextEvent = some .reset
  · simp [hr, resetDone_of_step_reset h hr]
  · simp [hr, hkept hr]

end Sys2Proof.Machine
end

section
/-! Commands given twice (R57, R112). `SET_DIRECTION` and `SET_SPEED` are one guarded write (`writeIdleSide`), and
`SET_STEPS` is read by its guard (R105, R110). -/

namespace Sys2Proof.Machine

/-- A write to the record of a side that does not run, and a rejection otherwise (R105). -/
def writeIdleSide (side : Side) (f : Motor → Motor) (s : State) : Result :=
  if s.sideBusy side then reject s else .next (s.setMotor side (f (s.motor side)))

theorem exec_setDirection (side : Side) (d : Direction) (s : State) :
    exec (.setDirection side d) s = writeIdleSide side (fun m => { m with direction := d }) s := rfl

theorem exec_setSpeed (side : Side) (p : Resolution) (s : State) :
    exec (.setSpeed side p) s = writeIdleSide side (fun m => { m with speed := p }) s := rfl

/-- A guarded write repeats without effect when the write does and starts no side. -/
theorem writeIdleSide_repeat {side : Side} {f : Motor → Motor} {s t : State} (hff : ∀ m, f (f m) = f m)
    (hrun : ∀ m, (f m).running = m.running) (h : writeIdleSide side f s = .next t) :
    writeIdleSide side f t = .next t := by
  unfold writeIdleSide at h
  split at h
  case isTrue hbusy =>
    cases h
    simp [writeIdleSide, hbusy, reject]
  case isFalse hidle =>
    cases h
    have hstays : (f (s.motor side)).running = false := by simpa [hrun, State.sideBusy] using hidle
    simp [writeIdleSide, State.sideBusy, hstays, hff]

/-- A command other than `SET_STEPS` has no effect in a state it answered (R57). -/
theorem exec_repeat {i : Instr} {s t : State} (hi : ∀ l r, i ≠ .setSteps l r) (h : exec i s = .next t) :
    exec i t = .next t := by
  cases i with
  | enable b => cases b <;> cases h <;> rfl
  | setRunning b => cases h; rfl
  | setDirection side d =>
    rw [exec_setDirection] at h ⊢
    exact writeIdleSide_repeat (fun _ => rfl) (fun _ => rfl) h
  | setSteps l r => exact absurd rfl (hi l r)
  | setSpeed side p =>
    rw [exec_setSpeed] at h ⊢
    exact writeIdleSide_repeat (fun _ => rfl) (fun _ => rfl) h
  | status => cases h; rfl

/-- While a side runs, `SET_STEPS` is rejected (R105). -/
theorem exec_setSteps_of_busy {s : State} (h : s.left.running = true ∨ s.right.running = true) (l r : Int) :
    exec (.setSteps l r) s = .next s := by
  simp [exec, execSetSteps, s.anyBusy_eq_true.2 h, reject]

/-- With both sides idle, `SET_STEPS` loads both counts (R110, R111). -/
theorem exec_setSteps_of_idle {s : State} (hl : s.left.running = false) (hr : s.right.running = false) (l r : Int) :
    exec (.setSteps l r) s =
      .next ((s.setMotor .left (s.left.loadCount l)).setMotor .right (s.right.loadCount r)) := by
  simp [exec, execSetSteps, s.anyBusy_eq_false.2 ⟨hl, hr⟩]

/-- A positive count starts the side (R110). -/
theorem Motor.loadCount_running_of_pos (m : Motor) {v : Int} (h : 0 < v) : (m.loadCount v).running = true := by
  obtain ⟨-, hm⟩ | ⟨hv, -⟩ := m.loadCount_cases v
  · rw [hm, Motor.arm_running]
  · omega

/-- Settles O22: R57 is `exec_repeat`; an armed side runs, so the guard rejects what follows (R112). -/
theorem repeatedCommands : Obligations.RepeatedCommands := by
  refine ⟨fun _ _ _ => exec_repeat, fun l r l' r' s t hl hr hpos h => exec_setSteps_of_busy ?_ l' r'⟩
  rw [exec_setSteps_of_idle hl hr] at h
  cases h
  exact hpos.imp s.left.loadCount_running_of_pos s.right.loadCount_running_of_pos

end Sys2Proof.Machine
end

section
/-! The decoder and the encoder are inverse (R61 to R70). Each format packs the operand it was read from, and
both directions follow from the two fields of a word, opcode and operand. -/

namespace Sys2Proof.Machine

/-! ### Each format packs what it reads -/

/-- Two fields that meet at a bit are one field. -/
theorem append_extract {w : Nat} (x : BitVec w) (k m n : Nat) :
    x.extractLsb' (k + m) n ++ x.extractLsb' k m = x.extractLsb' k (n + m) :=
  BitVec.extractLsb'_append_extractLsb'_eq_extractLsb' rfl

theorem ofBool_getLsbD (x : OperandWord) (k : Nat) : BitVec.ofBool (x.getLsbD k) = x.extractLsb' k 1 := by
  apply BitVec.eq_of_getLsbD_eq
  intro i hi
  obtain rfl : i = 0 := by omega
  simp

/-- A word whose upper bits are required to be 0 is its bit 0 (R63). -/
theorem packFB_of_readFB {x : OperandWord} {b : Bool} (h : readFB x = some b) : packFB b = x := by
  unfold readFB at h
  split at h <;> cases h
  next hzero =>
    calc packFB (x.getLsbD 0)
      _ = x.extractLsb' 1 31 ++ x.extractLsb' 0 1 := by rw [packFB, hzero, ofBool_getLsbD]
      _ = x.extractLsb' 0 32 := append_extract x 0 1 31
      _ = x := BitVec.extractLsb'_eq_self

theorem packFD_of_readFD {x : OperandWord} {o : Side × Direction} (h : readFD x = some o) :
    packFD o.1 o.2 = x := by
  unfold readFD at h
  split at h <;> cases h
  next hzero =>
    obtain ⟨hhigh, hlow⟩ := hzero
    calc packFD (sideOfBit (x.getLsbD 8)) (directionOfBit (x.getLsbD 0))
      _ = x.extractLsb' 9 23 ++ x.extractLsb' 8 1 ++ x.extractLsb' 1 7 ++ x.extractLsb' 0 1 := by
        rw [packFD, hhigh, hlow, bitOfSide_sideOfBit, bitOfDirection_directionOfBit, ofBool_getLsbD, ofBool_getLsbD]
      _ = x.extractLsb' 0 32 := by
        rw [append_extract x 8 1 23, append_extract x 1 7 24, append_extract x 0 1 31]
      _ = x := BitVec.extractLsb'_eq_self

theorem packFP_of_readFP {x : OperandWord} {o : Side × Resolution} (h : readFP x = some o) :
    packFP o.1 o.2 = x := by
  unfold readFP at h
  split at h <;> cases h
  next hzero =>
    obtain ⟨hhigh, hlow⟩ := hzero
    calc packFP (sideOfBit (x.getLsbD 8)) (resolutionOfCode (x.extractLsb' 0 2))
      _ = x.extractLsb' 9 23 ++ x.extractLsb' 8 1 ++ x.extractLsb' 2 6 ++ x.extractLsb' 0 2 := by
        rw [packFP, hhigh, hlow, bitOfSide_sideOfBit, codeOfResolution_resolutionOfCode, ofBool_getLsbD]
      _ = x.extractLsb' 0 32 := by
        rw [append_extract x 8 1 23, append_extract x 2 6 24, append_extract x 0 2 30]
      _ = x := BitVec.extractLsb'_eq_self

theorem packFS_readFS (x : OperandWord) : packFS (readFS x).1 (readFS x).2 = x :=
  calc packFS (readFS x).1 (readFS x).2
    _ = x.extractLsb' 16 16 ++ x.extractLsb' 0 16 := by simp only [packFS, readFS, toWord16_sext16]
    _ = x.extractLsb' 0 32 := append_extract x 0 16 16
    _ = x := BitVec.extractLsb'_eq_self

theorem packFN_of_readFN {x : OperandWord} {u : Unit} (h : readFN x = some u) : packFN = x := by
  unfold readFN at h
  split at h <;> cases h
  next hzero => exact hzero.symm

end Sys2Proof.Machine

namespace Sys2Proof

open Sys2Proof.Machine

/-! ### The two fields of a word -/

theorem opcodeField_append_operandField (w : CmdWord) : opcodeField w ++ operandField w = w :=
  (append_extract w 0 32 8).trans BitVec.extractLsb'_eq_self

theorem operandOr_eq_ok {α : Type} {op : OpcodeByte} {x : OperandWord} {r : Option α} {k : α → Instr} {i : Instr}
    (h : operandOr op x r k = .ok i) : ∃ a, r = some a ∧ k a = i := by
  cases r with
  | none => cases h
  | some a => exact ⟨a, rfl, by simpa [operandOr] using h⟩

theorem wellFormed_setSteps_iff {l r : Int} :
    (Instr.setSteps l r).WellFormed ↔ countInRange l = true ∧ countInRange r = true := by
  simp [Instr.WellFormed, Instr.wellFormed]

/-- The counts that format `FS` reads fit (R66). -/
theorem wellFormed_readFS (x : OperandWord) : (Instr.setSteps (readFS x).1 (readFS x).2).WellFormed :=
  wellFormed_setSteps_iff.2 ⟨countInRange_sext16 _, countInRange_sext16 _⟩

/-- What a decoded word holds: the opcode and the operand of the command, whose counts fit (R61 to R67). -/
theorem fields_of_decode {w : CmdWord} {i : Instr} (h : decode w = .ok i) :
    opcodeField w = opcodeOf i ∧ operandOf i = operandField w ∧ i.WellFormed := by
  simp only [decode] at h
  split at h
  case isTrue hop =>
    obtain ⟨b, hr, rfl⟩ := operandOr_eq_ok h
    exact ⟨hop, packFB_of_readFB hr, rfl⟩
  split at h
  case isTrue hop =>
    obtain ⟨b, hr, rfl⟩ := operandOr_eq_ok h
    exact ⟨hop, packFB_of_readFB hr, rfl⟩
  split at h
  case isTrue hop =>
    obtain ⟨o, hr, rfl⟩ := operandOr_eq_ok h
    exact ⟨hop, packFD_of_readFD hr, rfl⟩
  split at h
  case isTrue hop =>
    cases h
    exact ⟨hop, packFS_readFS _, wellFormed_readFS _⟩
  split at h
  case isTrue hop =>
    obtain ⟨o, hr, rfl⟩ := operandOr_eq_ok h
    exact ⟨hop, packFP_of_readFP hr, rfl⟩
  split at h
  case isTrue hop =>
    obtain ⟨u, hr, rfl⟩ := operandOr_eq_ok h
    exact ⟨hop, packFN_of_readFN hr, rfl⟩
  case isFalse => cases h

/-- The two fields of a word decide which command it is the word of. -/
theorem encode_of_fields {w : CmdWord} {i : Instr} (hop : opcodeField w = opcodeOf i)
    (hx : operandOf i = operandField w) : encode i = w := by
  rw [encode, ← hop, hx, opcodeField_append_operandField]

theorem encode_of_decode {w : CmdWord} {i : Instr} (h : decode w = .ok i) : encode i = w :=
  have ⟨hop, hx, _⟩ := fields_of_decode h
  encode_of_fields hop hx

/-- The opcode selects the format that packed the operand, and that format reads it back. -/
theorem decode_encode {i : Instr} (h : i.WellFormed) : decode (encode i) = .ok i := by
  simp only [decode, opcodeField_encode, operandField_encode]
  cases i with
  | enable b => simp [opcodeOf, operandOf, operandOr]
  | setRunning b => simp [opcodeOf, operandOf, operandOr]
  | setDirection side d => simp [opcodeOf, operandOf, operandOr]
  | setSteps l r =>
    obtain ⟨hl, hr⟩ := wellFormed_setSteps_iff.1 h
    simp [opcodeOf, operandOf, readFS_packFS hl hr]
  | setSpeed side p => simp [opcodeOf, operandOf, operandOr]
  | status => simp [opcodeOf, operandOf, operandOr]

/-- Settles O1: each opcode leads back to its format, and each format reads what it packs. -/
theorem decodeOfEncode : Obligations.DecodeOfEncode := fun _ h => decode_encode h

/-- Settles O2: the two fields of a decoded word are those of its command. -/
theorem encodeOfDecode : Obligations.EncodeOfDecode := fun _ _ h =>
  have ⟨_, _, hwf⟩ := fields_of_decode h
  ⟨hwf, encode_of_decode h⟩

/-- A word that a well-formed command encodes to decodes to that command. -/
theorem decode_of_encode_eq {w : CmdWord} {i : Instr} (hwf : i.WellFormed) (h : encode i = w) : decode w = .ok i :=
  h ▸ decode_encode hwf

/-- Settles O5: each word is what the example's command encodes to. -/
theorem encodedExamples : Obligations.EncodedExamples := by
  refine ⟨?_, ?_, ?_, ?_, ?_, ?_, ?_, ?_, ?_, ?_, ?_, ?_, ?_, ?_, ?_, ?_, ?_⟩ <;>
    exact decode_of_encode_eq (by decide) (by decide)

end Sys2Proof
end

section
/-! The opcode map and the reserved words (R62, R69). A row of the map is an opcode with the operand bits that must be
0 (`matches_iff`), so the words no row matches are the words of R69, and the rest are the decoder's. -/

namespace Sys2Proof

open Sys2Proof.Machine

/-! ### A row matches by opcode and by the bits that must be 0 -/

theorem eq_iff_fields (w v : CmdWord) : w = v ↔ opcodeField w = opcodeField v ∧ operandField w = operandField v := by
  refine ⟨fun h => h ▸ ⟨rfl, rfl⟩, fun ⟨hop, hx⟩ => ?_⟩
  rw [← opcodeField_append_operandField w, hop, hx, opcodeField_append_operandField]

/-- Every row fixes the whole opcode byte, and its fixed operand bits are 0. -/
theorem opcodeTable_fields : ∀ row ∈ opcodeTable,
    opcodeField row.mask = BitVec.allOnes 8 ∧ operandField row.pattern = 0#32 := by
  decide

/-- A row matches a word of its opcode whose operand has no bit of the mask set. -/
theorem matches_iff {row : OpcodeRow} (h : row ∈ opcodeTable) (w : CmdWord) :
    row.matches w = true ↔
      opcodeField w = opcodeField row.pattern ∧ operandField w &&& operandField row.mask = 0#32 := by
  obtain ⟨hmask, hpattern⟩ := opcodeTable_fields row h
  rw [OpcodeRow.matches, beq_iff_eq, eq_iff_fields, ← hpattern]
  unfold opcodeField operandField at *
  rw [BitVec.extractLsb'_and, BitVec.extractLsb'_and, hmask, BitVec.and_allOnes]

/-- The rows differ in their opcodes, so at most one matches a word (R62). -/
theorem row_unique {row₁ row₂ : OpcodeRow} (h₁ : row₁ ∈ opcodeTable) (h₂ : row₂ ∈ opcodeTable) {w : CmdWord}
    (hm₁ : row₁.matches w = true) (hm₂ : row₂.matches w = true) : row₁ = row₂ := by
  have hdistinct : ∀ r₁ ∈ opcodeTable, ∀ r₂ ∈ opcodeTable,
      opcodeField r₁.pattern = opcodeField r₂.pattern → r₁ = r₂ := by decide
  obtain ⟨hop₁, -⟩ := (matches_iff h₁ w).1 hm₁
  obtain ⟨hop₂, -⟩ := (matches_iff h₂ w).1 hm₂
  exact hdistinct _ h₁ _ h₂ (hop₁.symm.trans hop₂)

theorem row_eq_of_mnemonic : ∀ row₁ ∈ opcodeTable, ∀ row₂ ∈ opcodeTable,
    row₁.mnemonic = row₂.mnemonic → row₁ = row₂ := by
  decide

/-! ### A format accepts an operand whose bits that must be 0 are 0 -/

/-- A field that a mask covers is 0 where the masked operand is. -/
theorem extract_eq_zero_of_and {x m : OperandWord} {k n : Nat} (h : x &&& m = 0#32)
    (hm : m.extractLsb' k n = BitVec.allOnes n) : x.extractLsb' k n = 0#n :=
  calc x.extractLsb' k n
    _ = (x &&& m).extractLsb' k n := by rw [BitVec.extractLsb'_and, hm, BitVec.and_allOnes]
    _ = 0#n := by simp [h]

theorem readFB_of_and {x : OperandWord} (h : x &&& 0xFFFFFFFE#32 = 0#32) : readFB x = some (x.getLsbD 0) :=
  if_pos (extract_eq_zero_of_and h (by decide))

theorem readFD_of_and {x : OperandWord} (h : x &&& 0xFFFFFEFE#32 = 0#32) :
    readFD x = some (sideOfBit (x.getLsbD 8), directionOfBit (x.getLsbD 0)) :=
  if_pos ⟨extract_eq_zero_of_and h (by decide), extract_eq_zero_of_and h (by decide)⟩

theorem readFP_of_and {x : OperandWord} (h : x &&& 0xFFFFFEFC#32 = 0#32) :
    readFP x = some (sideOfBit (x.getLsbD 8), resolutionOfCode (x.extractLsb' 0 2)) :=
  if_pos ⟨extract_eq_zero_of_and h (by decide), extract_eq_zero_of_and h (by decide)⟩

theorem readFN_of_and {x : OperandWord} (h : x &&& 0xFFFFFFFF#32 = 0#32) : readFN x = some () :=
  if_pos (BitVec.and_allOnes.symm.trans h)

theorem decode_of_fields {w : CmdWord} {i : Instr} (hwf : i.WellFormed) (hop : opcodeField w = opcodeOf i)
    (hx : operandOf i = operandField w) : decode w = .ok i :=
  decode_of_encode_eq hwf (encode_of_fields hop hx)

/-- A word that a row matches is a command of that row (R62). -/
theorem decode_of_matches {row : OpcodeRow} (h : row ∈ opcodeTable) {w : CmdWord} (hm : row.matches w = true) :
    ∃ i, decode w = .ok i ∧ mnemonicOf i = row.mnemonic := by
  obtain ⟨hop, hx⟩ := (matches_iff h w).1 hm
  simp only [opcodeTable, List.mem_cons, List.not_mem_nil, or_false] at h
  obtain rfl | rfl | rfl | rfl | rfl | rfl := h
  · exact ⟨.enable _, decode_of_fields rfl hop (packFB_of_readFB (readFB_of_and hx)), rfl⟩
  · exact ⟨.setRunning _, decode_of_fields rfl hop (packFB_of_readFB (readFB_of_and hx)), rfl⟩
  · exact ⟨.setDirection _ _, decode_of_fields rfl hop (packFD_of_readFD (readFD_of_and hx)), rfl⟩
  · exact ⟨.setSteps _ _, decode_of_fields (wellFormed_readFS _) hop (packFS_readFS _), rfl⟩
  · exact ⟨.setSpeed _ _, decode_of_fields rfl hop (packFP_of_readFP (readFP_of_and hx)), rfl⟩
  · exact ⟨.status, decode_of_fields rfl hop (packFN_of_readFN (readFN_of_and hx)), rfl⟩

/-- Every command's word lies in the row of its mnemonic (the model's `EncodedRow`). -/
theorem encodedRow (i : Instr) : Laws.EncodedRow.Statement i := by
  cases i with
  | enable b => exact Laws.EncodedRow.enable b
  | setRunning b => exact Laws.EncodedRow.setRunning b
  | setDirection side d => exact Laws.EncodedRow.setDirection side d
  | setSteps l r => exact Laws.EncodedRow.setSteps l r
  | setSpeed side p => exact Laws.EncodedRow.setSpeed side p
  | status => exact Laws.EncodedRow.status

theorem matches_of_decode {w : CmdWord} {i : Instr} (h : decode w = .ok i) :
    ∃ row ∈ opcodeTable, row.mnemonic = mnemonicOf i ∧ row.matches w = true :=
  encode_of_decode h ▸ encodedRow i

/-- Settles O3: a matched word decodes into its row, a decoded word lies in one, and rows differ in opcode. -/
theorem opcodeMapIsExact : Obligations.OpcodeMapIsExact := by
  refine ⟨rfl, fun w => ⟨fun row hrow => ⟨decode_of_matches hrow, ?_⟩, fun i hd => ?_, ?_⟩⟩
  · rintro ⟨i, hd, hname⟩
    obtain ⟨row', hrow', hname', hm⟩ := matches_of_decode hd
    obtain rfl := row_eq_of_mnemonic row hrow row' hrow' (hname.symm.trans hname'.symm)
    exact hm
  · obtain ⟨row, hrow, hname, -⟩ := matches_of_decode hd
    exact ⟨row, hrow, hname⟩
  · exact fun _ h₁ _ h₂ => row_unique h₁ h₂

/-! ### The reserved words -/

/-- The decoder refuses a word exactly when no row matches it (R69, R70). -/
theorem decode_error_iff (w : CmdWord) :
    (∃ e, decode w = .error e) ↔ ∀ row ∈ opcodeTable, row.matches w = false := by
  constructor
  · rintro ⟨e, he⟩ row hrow
    refine Bool.eq_false_iff.2 fun hm => ?_
    obtain ⟨i, hd, -⟩ := decode_of_matches hrow hm
    cases he.symm.trans hd
  · intro hnone
    cases hd : decode w with
    | error e => exact ⟨e, rfl⟩
    | ok i =>
      obtain ⟨row, hrow, -, hm⟩ := matches_of_decode hd
      cases (hnone row hrow).symm.trans hm

theorem opcodeField_toNat (w : CmdWord) : (opcodeField w).toNat = w.toNat / 2 ^ 32 := by
  have hw := w.isLt
  rw [opcodeField, BitVec.extractLsb'_toNat, Nat.shiftRight_eq_div_pow]
  omega

theorem opcodeField_eq_iff (w : CmdWord) (op : OpcodeByte) : opcodeField w = op ↔ w.toNat / 2 ^ 32 = op.toNat := by
  rw [← opcodeField_toNat, BitVec.toNat_inj]

/-- Whether the format of an opcode requires a bit of the operand to be 0 (R61): the fixed bits of R69's list. The
format of `SET_STEPS` requires none. -/
def reservedBit : Nat → Nat → Bool
  | 1, k => decide (1 ≤ k)
  | 2, k => decide (1 ≤ k)
  | 3, k => decide (k ≠ 0 ∧ k ≠ 8)
  | 5, k => decide (k ≠ 0 ∧ k ≠ 1 ∧ k ≠ 8)
  | 6, _ => true
  | _, _ => false

/-- R69's list, read as an opcode of no command or a set bit that the opcode's format requires to be 0. -/
theorem isReserved_iff (w : CmdWord) : IsReserved w ↔
    w.toNat / 2 ^ 32 = 0 ∨ 7 ≤ w.toNat / 2 ^ 32 ∨
      ∃ k, k ≤ 31 ∧ reservedBit (w.toNat / 2 ^ 32) k = true ∧ w.getLsbD k = true := by
  unfold IsReserved
  generalize w.toNat / 2 ^ 32 = op
  obtain h | h | h | h | h | h | h | h : op = 0 ∨ op = 1 ∨ op = 2 ∨ op = 3 ∨ op = 4 ∨ op = 5 ∨ op = 6 ∨ 7 ≤ op := by
    omega
  · simp [h]
  · simp [h, reservedBit, and_left_comm]
  · simp [h, reservedBit, and_left_comm]
  · simp [h, reservedBit, and_assoc]
  · simp [h, reservedBit]
  · simp [h, reservedBit, and_assoc]
  · simp [h, reservedBit]
  · simp [h]

/-- The masks of the map fix the operand bits that R69 reserves (R61, R62). -/
theorem opcodeTable_mask : ∀ row ∈ opcodeTable, ∀ k < 32,
    (operandField row.mask).getLsbD k = reservedBit (opcodeField row.pattern).toNat k := by
  decide

/-- The opcodes of the map are 1 to 6 (R62). -/
theorem opcodeTable_opcode (op : Nat) :
    (∃ row ∈ opcodeTable, op = (opcodeField row.pattern).toNat) ↔ op ≠ 0 ∧ ¬7 ≤ op := by
  simp [opcodeTable, opcodeField]
  omega

/-- A mask leaves nothing of a word's operand exactly when no bit is set in both. -/
theorem operandField_and_eq_zero_iff (w : CmdWord) (m : OperandWord) :
    operandField w &&& m = 0#32 ↔ ∀ k < 32, ¬(m.getLsbD k = true ∧ w.getLsbD k = true) := by
  rw [BitVec.eq_of_getLsbD_eq_iff]
  refine forall₂_congr fun k hk => ?_
  rw [not_and']
  simp [operandField, hk]

/-- A row fails to match a word of its opcode exactly when a reserved bit is set. -/
theorem matches_eq_false_iff {row : OpcodeRow} (h : row ∈ opcodeTable) (w : CmdWord) :
    row.matches w = false ↔ (w.toNat / 2 ^ 32 = (opcodeField row.pattern).toNat →
      ∃ k, k ≤ 31 ∧ reservedBit (w.toNat / 2 ^ 32) k = true ∧ w.getLsbD k = true) := by
  rw [← Bool.not_eq_true, matches_iff h, opcodeField_eq_iff, not_and]
  refine imp_congr_right fun hop => ?_
  have hbits : operandField w &&& operandField row.mask = 0#32 ↔
      ∀ k < 32, ¬(reservedBit (w.toNat / 2 ^ 32) k = true ∧ w.getLsbD k = true) := by
    rw [operandField_and_eq_zero_iff, hop]
    exact forall₂_congr fun k hk => by rw [opcodeTable_mask row h k hk]
  simp [hbits, Nat.lt_succ_iff]

/-- A word is in R69's list exactly when no row of the map matches it. -/
theorem isReserved_iff_no_row (w : CmdWord) : IsReserved w ↔ ∀ row ∈ opcodeTable, row.matches w = false := by
  have hopcode := opcodeTable_opcode (w.toNat / 2 ^ 32)
  rw [isReserved_iff]
  constructor
  · intro h row hrow
    refine (matches_eq_false_iff hrow w).2 fun hop => ?_
    obtain ⟨hne, hlt⟩ := hopcode.1 ⟨row, hrow, hop⟩
    exact (h.resolve_left hne).resolve_left hlt
  · intro hnone
    refine or_iff_not_imp_left.2 fun hne => or_iff_not_imp_left.2 fun hlt => ?_
    obtain ⟨row, hrow, hop⟩ := hopcode.2 ⟨hne, hlt⟩
    exact (matches_eq_false_iff hrow w).1 (hnone row hrow) hop

/-- The machine refuses a word that the decoder refuses, where it admits a command (R69). -/
theorem step_of_reserved {s : State} {w : CmdWord} {rest : List Event} {e : DecodeError} (hs : s.Ready)
    (hu : s.upcoming = .cmd w :: rest) (hd : decode w = .error e) : step s = .refused (.reservedWord w) := by
  obtain ⟨hf, hr⟩ := hs
  calc step s
    _ = onCommand w (s.deliver rest) := step_of_event hf hu
    _ = .refused (.reservedWord w) := by simp [onCommand, hr, hd]

/-- Settles O4: the words of R69's list are those no row matches, and so those the decoder refuses. -/
theorem reservedWordsRefused : Obligations.ReservedWordsRefused := by
  intro w
  have hiff : IsReserved w ↔ ∃ e, decode w = .error e := (isReserved_iff_no_row w).trans (decode_error_iff w).symm
  refine ⟨hiff, fun hw => ⟨(isReserved_iff_no_row w).1 hw, fun s rest hs hu => ?_⟩⟩
  obtain ⟨e, hd⟩ := hiff.1 hw
  exact step_of_reserved hs hu hd

end Sys2Proof
end

section
/-! The assembler reads back the canonical text of a command (R71, log 13): first the tokens of a line whose words hold
no separator, then each operand by its name or its decimal digits. -/

namespace Sys2Proof.Machine

/-! ### The tokens of a canonical line -/

/-- A character that `tokens` takes into a word: no blank, no punctuation mark, no start of a comment. -/
def isWordChar (c : Char) : Bool := decide (c ≠ ';' ∧ c ≠ ' ' ∧ c ≠ ',' ∧ c ≠ '(' ∧ c ≠ ')')

/-- The words that `tokens` reads as one token. -/
def IsWord (t : String) : Prop := t.toList ≠ [] ∧ ∀ c ∈ t.toList, isWordChar c = true

theorem tokens_wordChar {c : Char} (h : isWordChar c = true) (cs acc : List Char) :
    tokens (c :: cs) acc = tokens cs (c :: acc) := by
  obtain ⟨h₁, h₂, h₃, h₄, h₅⟩ := of_decide_eq_true h
  simp [tokens, h₁, h₂, h₃, h₄, h₅]

theorem tokens_append {cs : List Char} (h : ∀ c ∈ cs, isWordChar c = true) (rest acc : List Char) :
    tokens (cs ++ rest) acc = tokens rest (cs.reverse ++ acc) := by
  induction cs generalizing acc with
  | nil => rfl
  | cons c cs ih =>
    have ⟨hc, hcs⟩ := List.forall_mem_cons.1 h
    rw [List.cons_append, tokens_wordChar hc, ih hcs]
    simp

theorem flushWord_nil (rest : List Token) : flushWord [] rest = rest := rfl

theorem flushWord_reverse {t : String} (h : IsWord t) (rest : List Token) :
    flushWord t.toList.reverse rest = .word t :: rest := by
  unfold flushWord
  split
  case h_1 hnil => exact absurd (List.reverse_eq_nil_iff.1 hnil) h.1
  case h_2 => simp

theorem tokens_word {t : String} (h : IsWord t) : tokens t.toList [] = [.word t] := by
  rw [← List.append_nil t.toList, tokens_append h.2, List.append_nil, tokens, flushWord_reverse h]

theorem tokens_word_blank {t : String} (h : IsWord t) (cs : List Char) :
    tokens (t.toList ++ ' ' :: cs) [] = .word t :: tokens cs [] := by
  rw [tokens_append h.2, List.append_nil]
  simp [tokens, flushWord_reverse h]

theorem tokens_word_comma {t : String} (h : IsWord t) (cs : List Char) :
    tokens (t.toList ++ ',' :: ' ' :: cs) [] = .word t :: .comma :: tokens cs [] := by
  rw [tokens_append h.2, List.append_nil]
  simp [tokens, flushWord_reverse h, flushWord_nil]

theorem assemble_one_operand {m a : String} (hm : IsWord m) (ha : IsWord a) :
    assemble (m ++ " " ++ a) = assembleCanonical m [a] := by
  have htokens : tokens (m ++ " " ++ a).toList [] = [.word m, .word a] := by
    simp [tokens_word_blank hm, tokens_word ha]
  rw [assemble, htokens]
  rfl

theorem assemble_two_operands {m a b : String} (hm : IsWord m) (ha : IsWord a) (hb : IsWord b) :
    assemble (m ++ " " ++ a ++ ", " ++ b) = assembleCanonical m [a, b] := by
  have htokens : tokens (m ++ " " ++ a ++ ", " ++ b).toList [] = [.word m, .word a, .comma, .word b] := by
    simp [tokens_word_blank hm, tokens_word_comma ha, tokens_word hb]
  rw [assemble, htokens]
  rfl

/-! ### Names -/

theorem isWord_mnemonicOf (i : Instr) : IsWord (mnemonicOf i) := by
  cases i <;> simp [IsWord, mnemonicOf, isWordChar]

theorem isWord_nameOfBool (b : Bool) : IsWord (nameOfBool b) := by
  cases b <;> simp [IsWord, nameOfBool, isWordChar]

theorem isWord_nameOfSide (s : Side) : IsWord (nameOfSide s) := by
  cases s <;> simp [IsWord, nameOfSide, isWordChar]

theorem isWord_nameOfDirection (d : Direction) : IsWord (nameOfDirection d) := by
  cases d <;> simp [IsWord, nameOfDirection, isWordChar]

theorem isWord_nameOfResolution (p : Resolution) : IsWord (nameOfResolution p) := by
  cases p <;> simp [IsWord, nameOfResolution, isWordChar]

@[simp] theorem readBool_nameOfBool (b : Bool) : readBool (nameOfBool b) = some b := by
  cases b <;> simp [readBool, nameOfBool]

@[simp] theorem readSide_nameOfSide (s : Side) : readSide (nameOfSide s) = some s := by
  cases s <;> simp [readSide, nameOfSide]

@[simp] theorem readDirection_nameOfDirection (d : Direction) : readDirection (nameOfDirection d) = some d := by
  cases d <;> simp [readDirection, nameOfDirection]

@[simp] theorem readResolution_nameOfResolution (p : Resolution) :
    readResolution (nameOfResolution p) = some p := by
  cases p <;> simp [readResolution, nameOfResolution]

/-! ### Decimal counts -/

/-- The digits below 10, as characters: each is read as its value. -/
theorem digit_char : ∀ d < 10,
    (Char.ofNat (48 + d)).isDigit = true ∧ (Char.ofNat (48 + d)).toNat - 48 = d := by
  decide

theorem isWordChar_of_isDigit {c : Char} (h : c.isDigit = true) : isWordChar c = true := by
  refine decide_eq_true ⟨?_, ?_, ?_, ?_, ?_⟩ <;>
    · rintro rfl
      exact absurd h (by decide)

theorem isDigit_of_mem_decimalDigits {k n : Nat} : ∀ c ∈ decimalDigits k n, c.isDigit = true := by
  induction k generalizing n with
  | zero => simp [decimalDigits]
  | succ k ih =>
    have hlast := (digit_char (n % 10) (Nat.mod_lt _ (by decide))).1
    intro c hc
    rw [decimalDigits, List.mem_append, List.mem_singleton] at hc
    obtain hc | rfl := hc
    · split at hc
      · cases hc
      · exact ih c hc
    · exact hlast

theorem readDigits_append (xs ys : List Char) (n : Nat) :
    readDigits (xs ++ ys) n = (readDigits xs n).bind (readDigits ys) := by
  induction xs generalizing n with
  | nil => rfl
  | cons c xs ih =>
    simp only [List.cons_append, readDigits, ih]
    split <;> rfl

/-- The number of digits is bounded by the number: `n / 10 < k` whenever `n < k + 1` and a digit is left. -/
theorem readDigits_decimalDigits {k n : Nat} (h : n < k) : readDigits (decimalDigits k n) 0 = some n := by
  induction k generalizing n with
  | zero => omega
  | succ k ih =>
    have ⟨hdigit, hval⟩ := digit_char (n % 10) (Nat.mod_lt _ (by decide))
    have hfront : readDigits (if n < 10 then [] else decimalDigits k (n / 10)) 0 = some (n / 10) := by
      split
      case isTrue hlt => simp [readDigits, Nat.div_eq_of_lt hlt]
      case isFalse => exact ih (by omega)
    rw [decimalDigits, readDigits_append, hfront]
    simp [readDigits, hdigit, hval, Nat.div_add_mod]

theorem decimalDigits_ne_nil (k n : Nat) : decimalDigits (k + 1) n ≠ [] := by
  simp [decimalDigits]

theorem readNat_of_ne_nil {cs : List Char} (h : cs ≠ []) : readNat cs = readDigits cs 0 := by
  cases cs with
  | nil => exact absurd rfl h
  | cons c cs => rfl

theorem readNat_decimalDigits (n : Nat) : readNat (decimalDigits (n + 1) n) = some n :=
  (readNat_of_ne_nil (decimalDigits_ne_nil n n)).trans (readDigits_decimalDigits n.lt_succ_self)

theorem readInt_minus {cs : List Char} {n : Nat} (h : readNat cs = some n) :
    readInt ('-' :: cs) = some (-(n : Int)) := by
  simp [readInt, h]

/-- Digits hold no sign. -/
theorem readInt_of_digits {cs : List Char} {n : Nat} (hdigits : ∀ c ∈ cs, c.isDigit = true)
    (h : readNat cs = some n) : readInt cs = some (n : Int) := by
  unfold readInt
  split
  case h_1 => exact absurd (hdigits '-' (by simp)) (by decide)
  case h_2 => simp [h]

theorem readInt_countText (v : Int) : readInt (countText v) = some v := by
  unfold countText
  split
  case isTrue hneg =>
    have hsign : -(v.natAbs : Int) = v := by omega
    rw [readInt_minus (readNat_decimalDigits _), hsign]
  case isFalse hpos =>
    have hsign : (v.natAbs : Int) = v := by omega
    rw [readInt_of_digits isDigit_of_mem_decimalDigits (readNat_decimalDigits _), hsign]

theorem readCount_countText {v : Int} (h : countInRange v = true) :
    readCount (String.ofList (countText v)) = some v := by
  simp [readCount, readInt_countText, h]

theorem isWord_countText (v : Int) : IsWord (String.ofList (countText v)) := by
  have hdigits : ∀ c ∈ decimalDigits (v.natAbs + 1) v.natAbs, isWordChar c = true :=
    fun c hc => isWordChar_of_isDigit (isDigit_of_mem_decimalDigits c hc)
  unfold IsWord countText
  rw [String.toList_ofList]
  split
  case isTrue =>
    exact ⟨by simp, List.forall_mem_cons.2 ⟨by decide, hdigits⟩⟩
  case isFalse => exact ⟨decimalDigits_ne_nil _ _, hdigits⟩

/-! ### Commands -/

/-- Settles O6: the line's tokens are the mnemonic and the operands, and each operand is read back. -/
theorem canonicalTextAssembles : Obligations.CanonicalTextAssembles := by
  intro i hwf
  cases i with
  | enable b =>
    calc assemble ("ENABLE" ++ " " ++ nameOfBool b)
      _ = assembleCanonical "ENABLE" [nameOfBool b] :=
        assemble_one_operand (isWord_mnemonicOf (.enable b)) (isWord_nameOfBool b)
      _ = some (.enable b) := by simp [assembleCanonical]
  | setRunning b =>
    calc assemble ("SET_RUNNING" ++ " " ++ nameOfBool b)
      _ = assembleCanonical "SET_RUNNING" [nameOfBool b] :=
        assemble_one_operand (isWord_mnemonicOf (.setRunning b)) (isWord_nameOfBool b)
      _ = some (.setRunning b) := by simp [assembleCanonical]
  | setDirection side d =>
    calc assemble ("SET_DIRECTION" ++ " " ++ nameOfSide side ++ ", " ++ nameOfDirection d)
      _ = assembleCanonical "SET_DIRECTION" [nameOfSide side, nameOfDirection d] :=
        assemble_two_operands (isWord_mnemonicOf (.setDirection side d)) (isWord_nameOfSide side)
          (isWord_nameOfDirection d)
      _ = some (.setDirection side d) := by simp [assembleCanonical, both]
  | setSteps l r =>
    obtain ⟨hl, hr⟩ := wellFormed_setSteps_iff.1 hwf
    calc assemble ("SET_STEPS" ++ " " ++ String.ofList (countText l) ++ ", " ++ String.ofList (countText r))
      _ = assembleCanonical "SET_STEPS" [String.ofList (countText l), String.ofList (countText r)] :=
        assemble_two_operands (isWord_mnemonicOf (.setSteps l r)) (isWord_countText l) (isWord_countText r)
      _ = some (.setSteps l r) := by simp [assembleCanonical, both, readCount_countText hl, readCount_countText hr]
  | setSpeed side p =>
    calc assemble ("SET_SPEED" ++ " " ++ nameOfSide side ++ ", " ++ nameOfResolution p)
      _ = assembleCanonical "SET_SPEED" [nameOfSide side, nameOfResolution p] :=
        assemble_two_operands (isWord_mnemonicOf (.setSpeed side p)) (isWord_nameOfSide side)
          (isWord_nameOfResolution p)
      _ = some (.setSpeed side p) := by simp [assembleCanonical, both]
  | status => rfl

end Sys2Proof.Machine
end

section
/-! A tick as a function of one side's record (R81 to R87): `Motor.advanced` is what the engine makes of a record it
advances and `Motor.emits` whether it pulses. The statements on one tick follow from the two equations that tie them
to the step of a tick. -/

namespace Sys2Proof.Machine

/-! ### The engine on a record -/

/-- Whether this advance reaches the side's divisor (R82). -/
def Motor.due (div : PulseDiv) (m : Motor) : Bool := isPulseTick div m.speed (m.phase + 1#16)

/-- Whether an advance of this record emits a pulse (R83, R85). -/
def Motor.emits (div : PulseDiv) (m : Motor) : Bool := m.due div && m.hasSteps

/-- The record after an advance: a phase step, a pulse, or a stop without a pulse (R82 to R85). -/
def Motor.advanced (div : PulseDiv) (m : Motor) : Motor :=
  if m.due div then
    if m.hasSteps then { m.loadLatches.countDown with phase := 0#16 } else { m.stop with phase := 0#16 }
  else { m with phase := m.phase + 1#16 }

theorem Motor.due_eq_true_iff (div : PulseDiv) (m : Motor) :
    m.due div = true ↔ (div.get m.speed : Int) ≤ sext16 (m.phase + 1#16) :=
  decide_eq_true_iff

theorem Motor.hasSteps_eq_true_iff (m : Motor) : m.hasSteps = true ↔ 0 < sext16 m.steps :=
  decide_eq_true_iff

section Record
variable {div : PulseDiv} {m : Motor}

theorem Motor.emits_iff : m.emits div = true ↔ m.due div = true ∧ m.hasSteps = true :=
  Bool.and_eq_true_iff

theorem Motor.advanced_of_not_due (h : m.due div = false) : m.advanced div = { m with phase := m.phase + 1#16 } := by
  simp [Motor.advanced, h]

theorem Motor.advanced_of_emits (h : m.emits div = true) :
    m.advanced div = { m.loadLatches.countDown with phase := 0#16 } := by
  obtain ⟨hdue, hsteps⟩ := Motor.emits_iff.1 h
  simp [Motor.advanced, hdue, hsteps]

theorem Motor.advanced_of_dry (hdue : m.due div = true) (hsteps : m.hasSteps = false) :
    m.advanced div = { m.stop with phase := 0#16 } := by
  simp [Motor.advanced, hdue, hsteps]

variable (div m)

/-- The three kinds of advance (R82 to R85). -/
theorem Motor.advanced_cases :
    (m.due div = false ∧ m.emits div = false ∧ m.advanced div = { m with phase := m.phase + 1#16 }) ∨
    (m.due div = true ∧ 0 < sext16 m.steps ∧ m.emits div = true ∧
      m.advanced div = { m.loadLatches.countDown with phase := 0#16 }) ∨
    (m.due div = true ∧ sext16 m.steps ≤ 0 ∧ m.emits div = false ∧
      m.advanced div = { m.stop with phase := 0#16 }) := by
  cases hdue : m.due div with
  | false => exact .inl ⟨rfl, by simp [Motor.emits, hdue], Motor.advanced_of_not_due hdue⟩
  | true =>
    cases hsteps : m.hasSteps with
    | true =>
      have hemits := Motor.emits_iff.2 ⟨hdue, hsteps⟩
      exact .inr (.inl ⟨rfl, m.hasSteps_eq_true_iff.1 hsteps, hemits, Motor.advanced_of_emits hemits⟩)
    | false =>
      have hnone : sext16 m.steps ≤ 0 := by simpa [Motor.hasSteps] using hsteps
      exact .inr (.inr ⟨rfl, hnone, by simp [Motor.emits, hsteps], Motor.advanced_of_dry hdue hsteps⟩)

theorem Motor.advanced_setup :
    (m.advanced div).direction = m.direction ∧ (m.advanced div).speed = m.speed := by
  obtain ⟨-, -, h⟩ | ⟨-, -, -, h⟩ | ⟨-, -, -, h⟩ := m.advanced_cases div <;> rw [h] <;> exact ⟨rfl, rfl⟩

/-- Each advance takes one step off the count with a pulse, and none without (R83, R85). -/
theorem Motor.advanced_steps :
    sext16 (m.advanced div).steps = sext16 m.steps - if m.emits div then 1 else 0 := by
  obtain ⟨-, he, h⟩ | ⟨-, hpos, he, h⟩ | ⟨-, -, he, h⟩ := m.advanced_cases div <;> rw [h, he]
  · exact (Int.sub_zero _).symm
  · have hlow : -32768 < sext16 m.steps := by omega
    exact sext16_sub_one hlow
  · exact (Int.sub_zero _).symm

variable {div m}

/-- An advance leaves no running record as it was: the phase moves, the count falls, or the side stops. -/
theorem Motor.advanced_ne (hrun : m.running = true) : m.advanced div ≠ m := by
  intro heq
  obtain ⟨-, -, h⟩ | ⟨-, -, -, h⟩ | ⟨-, -, -, h⟩ := m.advanced_cases div <;> rw [h] at heq
  · have hphase : m.phase + 1#16 = m.phase := congrArg Motor.phase heq
    simp at hphase
  · have hsteps : m.steps - 1#16 = m.steps := congrArg Motor.steps heq
    simp at hsteps
  · have hstop : false = m.running := congrArg Motor.running heq
    simp [hrun] at hstop

end Record

/-! ### The engine on a state -/

theorem State.advances_iff (s : State) (side : Side) :
    s.advances side = true ↔ s.enable = true ∧ s.runGate = true ∧ (s.motor side).running = true := by
  simp [State.advances, State.gateOpen, and_assoc]

theorem State.engineSide_of_not_advances {s : State} {side : Side} (h : s.advances side = false) :
    s.engineSide side = s := by
  simp [State.engineSide, h]

/-- What the engine does to the side it services, as a function of its record (R81 to R85). -/
theorem State.engineSide_self (s : State) (side : Side) :
    (s.engineSide side).motor side =
      (if s.advances side then (s.motor side).advanced s.pulseDiv else s.motor side) ∧
    (s.engineSide side).pulses.has side =
      (s.advances side && (s.motor side).emits s.pulseDiv || s.pulses.has side) := by
  obtain ⟨ha, h⟩ | ⟨ha, hdue, h⟩ | ⟨ha, hdue, hsteps, h⟩ | ⟨ha, hdue, hsteps, h⟩ := s.engineSide_cases side <;>
    rw [h, ha]
  · simp
  · have hadv := Motor.advanced_of_not_due (m := s.motor side) hdue
    simp [hadv, Motor.emits, show (s.motor side).due s.pulseDiv = false from hdue]
  · have hemits := Motor.emits_iff.2 ⟨hdue, hsteps⟩
    simp [Motor.advanced_of_emits hemits, hemits]
  · have hadv := Motor.advanced_of_dry (m := s.motor side) hdue hsteps
    simp [hadv, Motor.emits, hsteps]

/-- After the step of a tick, the record of a side (R81 to R86). -/
theorem State.tick_deliver_motor (s : State) (rest : List Event) (side : Side) :
    (s.deliver rest).tick.motor side =
      if s.advances side then (s.motor side).advanced s.pulseDiv else s.motor side := by
  rw [((s.deliver rest).tick_side side).1, ((s.deliver rest).engineSide_self side).1]
  simp [State.advances, State.gateOpen]

/-- After the step of a tick, whether a side has pulsed (R86). -/
theorem State.tick_deliver_pulses (s : State) (rest : List Event) (side : Side) :
    (s.deliver rest).tick.pulses.has side = (s.advances side && (s.motor side).emits s.pulseDiv) := by
  rw [((s.deliver rest).tick_side side).2, ((s.deliver rest).engineSide_self side).2]
  simp [State.advances, State.gateOpen]

theorem step_of_tick {s : State} {rest : List Event} (hs : s.Ready) (hu : s.upcoming = .tick :: rest) :
    step s = .next (s.deliver rest).tick := by
  obtain ⟨hf, hr⟩ := hs
  rw [step_of_event hf hu, onEvent, onTick, State.deliver_resetDone, hr, if_pos rfl]

/-- `step_of_tick` read backwards. -/
theorem tick_of_step {s t : State} (h : step s = .next t) (he : s.nextEvent = some .tick) :
    ∃ rest, t = (s.deliver rest).tick := by
  obtain ⟨-, ⟨hu, -⟩ | ⟨rest, hu, -⟩ | ⟨rest, hu, -⟩ | ⟨rest, -, -, ht⟩ | ⟨w, rest, i, hu, -⟩⟩ := step_cases h
  case inr.inr.inr.inl => exact ⟨rest, ht⟩
  all_goals simp [State.nextEvent, hu] at he

/-- The step of a tick on one side (R81 to R86). -/
theorem motor_of_step_tick {s t : State} (h : step s = .next t) (he : s.nextEvent = some .tick) (side : Side) :
    t.motor side = (if s.advances side then (s.motor side).advanced s.pulseDiv else s.motor side) ∧
    t.pulses.has side = (s.advances side && (s.motor side).emits s.pulseDiv) := by
  obtain ⟨rest, rfl⟩ := tick_of_step h he
  exact ⟨s.tick_deliver_motor rest side, s.tick_deliver_pulses rest side⟩

/-! ### The invariant, read off -/

/-- In a state that admits commands and ticks the invariant speaks of both records (R162). -/
theorem State.Inv.motor {s : State} (h : s.Inv) (hs : s.Ready) (side : Side) : (s.motor side).Inv s.pulseDiv := by
  obtain ⟨-, hdone⟩ := hs
  exact h.2 hdone side

/-- A running side has a step left (R35). -/
theorem Motor.Inv.one_le_steps {div : PulseDiv} {m : Motor} (h : m.Inv div) (hrun : m.running = true) :
    1 ≤ sext16 m.steps := by
  obtain ⟨-, hpos, -, -⟩ := h
  exact hpos hrun

/-- The phase of a running side is below its divisor (R36). -/
theorem Motor.Inv.phase_range {div : PulseDiv} {m : Motor} (h : m.Inv div) (hrun : m.running = true) :
    0 ≤ sext16 m.phase ∧ sext16 m.phase < (div.get m.speed : Int) := by
  obtain ⟨-, -, hphase, -⟩ := h
  exact hphase hrun

/-- The latches of a running side hold its set-up (R37). -/
theorem Motor.Inv.latches {div : PulseDiv} {m : Motor} (h : m.Inv div) (hrun : m.running = true) :
    m.dirOut = m.direction ∧ m.msOut = m.speed := by
  obtain ⟨-, -, -, hlatch⟩ := h
  exact hlatch hrun

/-- The next phase of a running side does not wrap (R9, R36). -/
theorem Motor.Inv.next_phase {div : PulseDiv} {m : Motor} (h : m.Inv div) (hdiv : div.Legal)
    (hrun : m.running = true) : sext16 (m.phase + 1#16) = sext16 m.phase + 1 := by
  obtain ⟨-, hbelow⟩ := h.phase_range hrun
  have hlegal := (hdiv m.speed).2
  exact sext16_add_one (by omega)

/-! ### One tick -/

/-- The levels of a side's lines are those of its latches (R129, R130). -/
theorem sideLines_congr (bd : Board) {s t : State} {side : Side} (h : t.motor side = s.motor side) :
    lineLevel bd t (.dir side) = lineLevel bd s (.dir side) ∧
    lineLevel bd t (.ms1 side) = lineLevel bd s (.ms1 side) ∧
    lineLevel bd t (.ms2 side) = lineLevel bd s (.ms2 side) := by
  simp [lineLevel, dirLine, msCode, h]

/-- Settles O26: the tick changes a record exactly where `advances` holds (`Motor.advanced_ne`). -/
theorem tickAdvancesExactly : Obligations.TickAdvancesExactly := by
  intro s rest hs hu
  refine ⟨_, step_of_tick hs hu, fun side => ⟨fun hnot => ?_, fun ⟨hen, hgate, hrun⟩ => ?_⟩⟩
  · have ha : s.advances side = false := by simpa using mt (s.advances_iff side).1 hnot
    have hm : (s.deliver rest).tick.motor side = s.motor side := by simp [s.tick_deliver_motor, ha]
    exact ⟨hm, by simp [s.tick_deliver_pulses, ha], fun bd => sideLines_congr bd hm⟩
  · rw [s.tick_deliver_motor, (s.advances_iff side).2 ⟨hen, hgate, hrun⟩, if_pos rfl]
    exact Motor.advanced_ne hrun

/-- At the default `PULSE_DIV` every advanced tick of a running side is a pulse tick (R82). -/
theorem Motor.due_of_default {div : PulseDiv} {m : Motor} (hdiv : div = ⟨1, 1, 1, 1⟩) (h : m.Inv div)
    (hrun : m.running = true) : m.due div = true := by
  have hone : div.get m.speed = 1 := by
    rw [hdiv]
    cases m.speed <;> rfl
  obtain ⟨hlow, hhigh⟩ := h.phase_range hrun
  have hnext : sext16 (m.phase + 1#16) = sext16 m.phase + 1 := sext16_add_one (by omega)
  exact (m.due_eq_true_iff div).2 (by omega)

/-- The latches of a running record hold its set-up (R37), so an advance changes neither. -/
theorem Motor.advanced_latches {div : PulseDiv} {m : Motor} (h : m.Inv div) (hrun : m.running = true) :
    (m.advanced div).dirOut = m.dirOut ∧ (m.advanced div).msOut = m.msOut := by
  obtain ⟨hdir, hms⟩ := h.latches hrun
  obtain ⟨-, -, ha⟩ | ⟨-, -, -, ha⟩ | ⟨-, -, -, ha⟩ := m.advanced_cases div <;> rw [ha]
  · exact ⟨rfl, rfl⟩
  · exact ⟨hdir.symm, hms.symm⟩
  · exact ⟨rfl, rfl⟩

/-- Settles O27, by the three kinds of advance, told apart by `due` and the count. -/
theorem tickOnAdvancedSide : Obligations.TickOnAdvancedSide := by
  intro s rest side hs hu hen hgate hrun
  have ha := (s.advances_iff side).2 ⟨hen, hgate, hrun⟩
  refine ⟨_, step_of_tick hs hu, ?_⟩
  rw [s.tick_deliver_motor, s.tick_deliver_pulses, ha, if_pos rfl, Bool.true_and]
  have hdue := (s.motor side).due_eq_true_iff s.pulseDiv
  have hsteps := (s.motor side).hasSteps_eq_true_iff
  refine ⟨fun hbelow => ?_, fun hreached hpos => ?_, fun hreached hnone => ?_, fun hinv => ?_⟩
  · have hnot : (s.motor side).due s.pulseDiv = false := by
      simpa using mt hdue.1 (by omega)
    exact ⟨Motor.advanced_of_not_due hnot, by simp [Motor.emits, hnot]⟩
  · have hemits := Motor.emits_iff.2 ⟨hdue.2 hreached, hsteps.2 hpos⟩
    refine ⟨hemits, ?_⟩
    rw [Motor.advanced_of_emits hemits]
    by_cases hlast : (s.motor side).steps - 1#16 = 0#16 <;>
      simp [Motor.countDown, Motor.loadLatches, runningAfter, hlast, hrun]
  · have hdry : (s.motor side).hasSteps = false := by
      simpa using mt hsteps.1 (by omega)
    exact ⟨by simp [Motor.emits, hdry], Motor.advanced_of_dry (hdue.2 hreached) hdry⟩
  · have hm := hinv.motor hs side
    obtain ⟨hdir, hms⟩ := Motor.advanced_latches hm hrun
    have hpos : 0 < sext16 (s.motor side).steps := hm.one_le_steps hrun
    exact ⟨hpos, hdir, hms, fun hdiv => Motor.emits_iff.2 ⟨Motor.due_of_default hdiv hm hrun, hsteps.2 hpos⟩⟩

/-- Settles O29: the shared fields by `State.tick_frame`, each record by what an advance changes of it. -/
theorem tickFrame : Obligations.TickFrame := by
  intro s t he h
  obtain ⟨rest, rfl⟩ := tick_of_step h he
  obtain ⟨hen, hgate, hfault, hdone, hdiv, -, hresp⟩ := (s.deliver rest).tick_frame
  refine ⟨hen, hgate, hfault, hdone, hdiv, hresp, fun side => ?_⟩
  rw [s.tick_deliver_motor, s.tick_deliver_pulses]
  cases ha : s.advances side with
  | false => simp
  | true =>
    obtain ⟨hdir, hspeed⟩ := (s.motor side).advanced_setup s.pulseDiv
    refine ⟨hdir, hspeed, fun _ => State.running_of_advances ha, fun hne => ?_⟩
    have hsteps := (s.motor side).advanced_steps s.pulseDiv
    cases hemits : (s.motor side).emits s.pulseDiv with
    | true => exact ⟨by simpa [hemits] using hsteps, rfl⟩
    | false =>
      have hsame : sext16 ((s.motor side).advanced s.pulseDiv).steps = sext16 (s.motor side).steps := by
        simpa [hemits] using hsteps
      exact absurd (BitVec.eq_of_toInt_eq hsame) hne

/-- Settles O30: with no side advanced, the engine leaves the state it was delivered to. -/
theorem idleTickChangesNothing : Obligations.IdleTickChangesNothing := by
  intro s rest hs hu hidle
  have hnone (side : Side) : (s.deliver rest).advances side = false := by
    obtain hg | he | ⟨hl, hr⟩ := hidle
    · simp [State.advances, State.gateOpen, hg]
    · simp [State.advances, State.gateOpen, he]
    · simp [State.advances, State.running_eq_false_of_idle hl hr side]
  have htick : (s.deliver rest).tick = s.deliver rest := by
    rw [State.tick, State.engineSide_of_not_advances (hnone .left), State.engineSide_of_not_advances (hnone .right)]
  refine ⟨s.deliver rest, htick ▸ step_of_tick hs hu, rfl, fun bd g => ?_⟩
  exact lineLevel_congr bd rfl (fun side => by simp) (fun side => by simp) g

/-! ### The two sides of a tick -/

/-- Servicing the other side before a side does not change what the engine does to it (R87). -/
theorem State.engineSide_after_other (s : State) (side : Side) :
    ((s.engineSide side.other).engineSide side).motor side = (s.engineSide side).motor side ∧
    ((s.engineSide side.other).engineSide side).pulses.has side = (s.engineSide side).pulses.has side := by
  obtain ⟨he, hg, -, -, hd, -, -, hm, hp⟩ := s.engineSide_frame side.other
  have hother : side.other.other = side := by cases side <;> rfl
  rw [hother] at hm hp
  exact State.engineSide_congr he hg hd hm hp

/-- Nor does servicing it afterwards. -/
theorem State.engineSide_before_other (s : State) (side : Side) :
    ((s.engineSide side).engineSide side.other).motor side = (s.engineSide side).motor side ∧
    ((s.engineSide side).engineSide side.other).pulses.has side = (s.engineSide side).pulses.has side := by
  obtain ⟨-, -, -, -, -, -, -, hm, hp⟩ := (s.engineSide side).engineSide_frame side.other
  have hother : side.other.other = side := by cases side <;> rfl
  rw [hother] at hm hp
  exact ⟨hm, hp⟩

/-- The two service orders agree on a side (R87). -/
theorem State.engineSide_order (s : State) (side : Side) :
    ((s.engineSide side).engineSide side.other).motor side = ((s.engineSide side.other).engineSide side).motor side ∧
    ((s.engineSide side).engineSide side.other).pulses.has side =
      ((s.engineSide side.other).engineSide side).pulses.has side := by
  obtain ⟨hm, hp⟩ := s.engineSide_after_other side
  obtain ⟨hm', hp'⟩ := s.engineSide_before_other side
  exact ⟨hm'.trans hm.symm, hp'.trans hp.symm⟩

theorem Pulses.ext_sides {p q : Pulses} (h : ∀ side, p.has side = q.has side) : p = q := by
  obtain ⟨hl, hr⟩ : p.left = q.left ∧ p.right = q.right := ⟨h .left, h .right⟩
  cases p
  cases q
  simp_all

/-- A state with both records and the pulse set blanked: what the engine does not write (R86). -/
def State.withoutSides (s : State) : State :=
  { s with left := Motor.reset, right := Motor.reset, pulses := Pulses.empty }

theorem State.withoutSides_engineSide (s : State) (side : Side) :
    (s.engineSide side).withoutSides = s.withoutSides := by
  obtain ⟨-, h⟩ | ⟨-, -, h⟩ | ⟨-, -, -, h⟩ | ⟨-, -, -, h⟩ := s.engineSide_cases side <;> rw [h] <;> cases side <;> rfl

theorem State.ext_sides {s t : State} (h : s.withoutSides = t.withoutSides)
    (hm : ∀ side, s.motor side = t.motor side) (hp : ∀ side, s.pulses.has side = t.pulses.has side) : s = t := by
  have hpulses := Pulses.ext_sides hp
  obtain ⟨hl, hr⟩ : s.left = t.left ∧ s.right = t.right := ⟨hm .left, hm .right⟩
  cases s
  cases t
  simp_all [State.withoutSides]

/-- Both orders of service leave the same state (R87). -/
theorem State.engineSide_comm (s : State) :
    (s.engineSide .left).engineSide .right = (s.engineSide .right).engineSide .left := by
  obtain ⟨hmotorL, hpulsesL⟩ := s.engineSide_order .left
  obtain ⟨hmotorR, hpulsesR⟩ := s.engineSide_order .right
  refine State.ext_sides (by simp only [State.withoutSides_engineSide]) (fun side => ?_) (fun side => ?_)
  · cases side
    · exact hmotorL
    · exact hmotorR.symm
  · cases side
    · exact hpulsesL
    · exact hpulsesR.symm

/-- Settles O28: the order by `State.engineSide_comm`, the reads by `State.engineSide_congr`. -/
theorem tickSidesAreIndependent : Obligations.TickSidesAreIndependent := by
  refine ⟨State.engineSide_comm, fun s₁ s₂ side he hg hd hm hp => ?_⟩
  obtain ⟨hm₁, hp₁⟩ := s₁.tick_side side
  obtain ⟨hm₂, hp₂⟩ := s₂.tick_side side
  obtain ⟨hmotor, hpulses⟩ := State.engineSide_congr he hg hd hm hp
  exact ⟨hm₁.trans (hmotor.trans hm₂.symm), hp₁.trans (hpulses.trans hp₂.symm)⟩

end Sys2Proof.Machine
end

section
/-! Two sides that move together (R90): a tick makes the same of both records (`Motor.Alike.advanced`), and any other
step but an accepted `SET_STEPS` leaves a running record as it is or stops both. -/

namespace Sys2Proof.Machine

/-! ### Steps off a tick -/

/-- Only a tick pulses (R131): the output of every other step is empty. -/
theorem pulses_of_step_off_tick {s t : State} (h : step s = .next t) (he : s.nextEvent ≠ some .tick) :
    t.pulses = Pulses.empty := by
  obtain ⟨-, ⟨-, rfl⟩ | ⟨rest, -, rfl⟩ | ⟨rest, -, rfl⟩ | ⟨rest, hu, -⟩ | ⟨w, rest, i, -, -, -, hx⟩⟩ := step_cases h
  · rfl
  · rfl
  · rfl
  · exact absurd (nextEvent_of_upcoming hu) he
  · obtain ⟨-, -, -, -, hp, -⟩ := exec_carries hx
    exact hp

/-- The step of a command is `exec` of it (`step_of_command` read backwards). -/
theorem exec_of_step {s t : State} {i : Instr} (h : step s = .next t) (hc : s.nextCommand = some i) :
    ∃ w rest, s.upcoming = .cmd w :: rest ∧ decode w = .ok i ∧ exec i (s.deliver rest) = .next t := by
  obtain ⟨-, ⟨hu, -⟩ | ⟨rest, hu, -⟩ | ⟨rest, hu, -⟩ | ⟨rest, hu, -⟩ | ⟨w, rest, j, hu, -, hd, hx⟩⟩ := step_cases h
  case inr.inr.inr.inr =>
    obtain rfl : j = i := Option.some.inj ((nextCommand_of_upcoming hu hd).symm.trans hc)
    exact ⟨w, rest, hu, hd, hx⟩
  all_goals simp [State.nextCommand, State.nextEvent, hu, Event.command] at hc

/-- `ENABLE 0` stops both sides (R95). -/
theorem motor_of_step_disable {s t : State} (h : step s = .next t) (hc : s.nextCommand = some (.enable false))
    (side : Side) : t.motor side = (s.motor side).stop := by
  obtain ⟨w, rest, -, -, hx⟩ := exec_of_step h hc
  cases hx
  exact State.motor_stopBoth _ side

/-- With both sides idle, the step of `SET_STEPS` loads both counts, which fit (R66, R110). -/
theorem motor_of_step_setSteps {s t : State} {l r : Int} (h : step s = .next t)
    (hc : s.nextCommand = some (.setSteps l r)) (hl : s.left.running = false) (hr : s.right.running = false)
    (side : Side) :
    t.motor side = (s.motor side).loadCount (countFor l r side) ∧ countInRange (countFor l r side) = true := by
  obtain ⟨w, rest, -, hd, hx⟩ := exec_of_step h hc
  refine ⟨?_, countInRange_of_decode hd side⟩
  rw [exec_setSteps_of_idle (s := s.deliver rest) hl hr] at hx
  cases hx
  cases side <;> rfl

/-- A step that is no tick, `Reset`, `ENABLE 0` or accepted `SET_STEPS` writes neither `running` nor `steps` (R41), and
no field of a running side (R105). -/
theorem SideStep.spared {s t : State} {side : Side} (h : SideStep s t side) (he : s.nextEvent ≠ some .tick)
    (hen : s.nextCommand ≠ some (.enable false)) (hset : ¬ s.takesSetSteps) :
    (t.motor side).running = (s.motor side).running ∧ (t.motor side).steps = (s.motor side).steps ∧
    ((t.motor side).running = true → t.motor side = s.motor side) := by
  cases h with
  | same hm => simp [hm]
  | count htick | pulse htick | dry htick => exact absurd htick he
  | disable hc => exact absurd hc hen
  | direction _ _ hidle hm | speed _ _ hidle hm => simp [hm, hidle]
  | arm l r hc hl hr | clear l r hc hl hr => exact absurd ⟨⟨l, r, hc⟩, hl, hr⟩ hset

/-! ### Two records alike -/

/-- `State.Together` on two records: they run alike, have the same count left and, while they run, are at the same
point of the same pulse period (R90). -/
def Motor.Alike (div : PulseDiv) (m m' : Motor) : Prop :=
  m.running = m'.running ∧ m.steps = m'.steps ∧
  (m.running = true → m.phase = m'.phase ∧ div.get m.speed = div.get m'.speed)

theorem State.together_iff (s : State) : s.Together ↔ (s.motor .left).Alike s.pulseDiv (s.motor .right) := Iff.rfl

section Alike
variable {div : PulseDiv} {m m' : Motor}

theorem Motor.alike_of_idle (hm : m.running = false) (hm' : m'.running = false) (hsteps : m.steps = m'.steps) :
    m.Alike div m' :=
  ⟨hm.trans hm'.symm, hsteps, fun hrun => by simp [hm] at hrun⟩

/-- Records alike that run emit on the same ticks, and stay alike (R81 to R85, R90). -/
theorem Motor.Alike.advanced (h : m.Alike div m') (hrun : m.running = true) :
    (m.advanced div).Alike div (m'.advanced div) ∧ m.emits div = m'.emits div := by
  obtain ⟨hruns, hsteps, hperiod⟩ := h
  obtain ⟨hphase, hdiv⟩ := hperiod hrun
  have hdue : m.due div = m'.due div := by simp only [Motor.due, isPulseTick, hphase, hdiv]
  have hhas : m.hasSteps = m'.hasSteps := by simp only [Motor.hasSteps, hsteps]
  refine ⟨?_, by simp only [Motor.emits, hdue, hhas]⟩
  unfold Motor.advanced
  rw [← hdue, ← hhas]
  split
  · split
    · exact ⟨by simp [hruns, hsteps], by simp [hsteps], fun _ => ⟨rfl, hdiv⟩⟩
    · exact Motor.alike_of_idle rfl rfl hsteps
  · exact ⟨hruns, hsteps, fun _ => ⟨congrArg (· + 1#16) hphase, hdiv⟩⟩

/-- `SET_STEPS n, n` puts two idle records alike (R90, R110). -/
theorem Motor.loadCount_alike (n : Int) (hm : m.running = false) (hm' : m'.running = false)
    (hdiv : div.get m.speed = div.get m'.speed) : (m.loadCount n).Alike div (m'.loadCount n) := by
  unfold Motor.loadCount
  split
  · simp [Motor.Alike, hdiv]
  · exact Motor.alike_of_idle hm hm' rfl

end Alike

/-! ### Steps of two sides together -/

/-- A tick advances both sides or neither, and does the same to both (R81, R90). -/
theorem together_of_tick {s t : State} (hs : s.Together) (h : step s = .next t) (he : s.nextEvent = some .tick) :
    t.Together ∧ t.pulses.has .left = t.pulses.has .right := by
  obtain ⟨hml, hpl⟩ := motor_of_step_tick h he .left
  obtain ⟨hmr, hpr⟩ := motor_of_step_tick h he .right
  have hboth : s.advances .left = s.advances .right := by simp only [State.advances, State.motor, hs.1]
  rw [State.together_iff, (step_pulseDiv_resetDone h).1, hml, hmr, hpl, hpr, ← hboth]
  cases ha : s.advances .left with
  | false => simpa using s.together_iff.1 hs
  | true => simpa using (s.together_iff.1 hs).advanced (State.running_of_advances ha)

/-- Every other step but an accepted `SET_STEPS` leaves running records as they are, or stops both. -/
theorem together_of_step_off_tick {s t : State} (hs : s.Together) (hset : ¬ s.takesSetSteps) (h : step s = .next t)
    (he : s.nextEvent ≠ some .tick) : t.Together := by
  rw [State.together_iff, (step_pulseDiv_resetDone h).1]
  by_cases hr : s.nextEvent = some .reset
  · rw [motor_of_step_reset h hr, motor_of_step_reset h hr]
    exact Motor.alike_of_idle rfl rfl rfl
  by_cases hen : s.nextCommand = some (.enable false)
  · rw [motor_of_step_disable h hen, motor_of_step_disable h hen]
    exact Motor.alike_of_idle rfl rfl hs.2.1
  obtain ⟨hrunL, hstepsL, hkeptL⟩ := (step_side h hr .left).spared he hen hset
  obtain ⟨hrunR, hstepsR, hkeptR⟩ := (step_side h hr .right).spared he hen hset
  obtain ⟨hruns, hsteps, hperiod⟩ := s.together_iff.1 hs
  have hruns' : (t.motor .left).running = (t.motor .right).running := by rw [hrunL, hrunR, hruns]
  refine ⟨hruns', by rw [hstepsL, hstepsR, hsteps], fun hrun => ?_⟩
  rw [hkeptL hrun, hkeptR (hruns' ▸ hrun)]
  exact hperiod (hrunL ▸ hrun)

theorem step_together {s t : State} (hs : s.Together) (hset : ¬ s.takesSetSteps) (h : step s = .next t) :
    t.Together ∧ t.pulses.left = t.pulses.right := by
  by_cases he : s.nextEvent = some .tick
  · exact together_of_tick hs h he
  · exact ⟨together_of_step_off_tick hs hset h he, by rw [pulses_of_step_off_tick h he]; rfl⟩

/-- An accepted `SET_STEPS n, n` at equal `PULSE_DIV` puts the sides together (R90). -/
theorem exec_setSteps_together {s : State} (n : Int) (hl : s.left.running = false) (hr : s.right.running = false)
    (hdiv : s.pulseDiv.get s.left.speed = s.pulseDiv.get s.right.speed) :
    ∃ t, exec (.setSteps n n) s = .next t ∧ t.Together :=
  ⟨_, exec_setSteps_of_idle hl hr n n, Motor.loadCount_alike n hl hr hdiv⟩

/-- Settles O47: a tick does the same to both records, every other step keeps or stops both (`step_together`). -/
theorem stepKeepsSidesTogether : Obligations.StepKeepsSidesTogether :=
  ⟨fun _ _ => step_together, fun _ n => exec_setSteps_together n⟩

/-! ### Runs of two sides together -/

/-- What every step from a state that meets `Q` keeps holds all along a run whose states meet `Q`. -/
theorem forall_statesAfter {P Q : State → Prop} (hstep : ∀ s t, P s → Q s → step s = .next t → P t) (k : Nat) :
    ∀ s, P s → (∀ u ∈ (s :: statesAfter k s).take k, Q u) → ∀ t ∈ statesAfter k s, P t := by
  induction k with
  | zero => exact fun _ _ _ t ht => by simp [statesAfter] at ht
  | succ k ih =>
    intro s hs hQ t ht
    cases hu : step s with
    | next u =>
      rw [statesAfter_succ_of_next k hu] at ht hQ
      rw [List.take_succ_cons] at hQ
      have hPu : P u := hstep s u hs (hQ s (.head _)) hu
      obtain rfl | ht := List.mem_cons.1 ht
      · exact hPu
      · exact ih u hPu (fun v hv => hQ v (.tail _ hv)) t ht
    | fault f => simp [statesAfter, hu] at ht
    | refused r => simp [statesAfter, hu] at ht

/-- Settles O43: the arming puts the sides together, and the run keeps them so (`step_together`). -/
theorem coordinatedStop : Obligations.CoordinatedStop := by
  intro s₀ w es n k hs _ hl hr hdiv hu hd _ hset t ht
  obtain ⟨s, hx, htogether⟩ := exec_setSteps_together (s := s₀.deliver es) n hl hr hdiv
  have hstep : step s₀ = .next s := (step_of_command hs hu hd).trans hx
  obtain ⟨-, -, -, -, hpulses, -⟩ := exec_carries hx
  have hempty : s.pulses.left = s.pulses.right := by rw [hpulses]; rfl
  rw [statesAfter_succ_of_next k hstep] at ht hset
  have hkept : t.Together ∧ t.pulses.left = t.pulses.right := by
    obtain rfl | ht := List.mem_cons.1 ht
    · exact ⟨htogether, hempty⟩
    · exact forall_statesAfter (P := fun u => u.Together ∧ u.pulses.left = u.pulses.right)
        (Q := fun u => ¬ u.takesSetSteps) (fun _ _ hu hset h => step_together hu.1 hset h) k s
        ⟨htogether, hempty⟩ hset t ht
  obtain ⟨⟨hruns, hsteps, -⟩, hpulse⟩ := hkept
  exact ⟨hruns, hsteps, hpulse⟩

end Sys2Proof.Machine
end

section
/-! The advancing ticks a side still runs (R89): an advance takes one off (`Motor.advanced_ticksLeft`), the arming sets
them, a stop leaves none, and nothing else changes them. -/

namespace Sys2Proof.Machine

/-! ### The ticks left of a record -/

/-- `State.ticksLeft` of one record. -/
def Motor.ticksLeft (div : PulseDiv) (m : Motor) : Int :=
  if m.running then sext16 m.steps * (div.get m.speed : Int) - sext16 m.phase else 0

theorem State.ticksLeft_eq (s : State) (side : Side) : s.ticksLeft side = (s.motor side).ticksLeft s.pulseDiv := rfl

section Record
variable {div : PulseDiv} {m : Motor}

theorem Motor.ticksLeft_of_idle (h : m.running = false) : m.ticksLeft div = 0 := by
  simp [Motor.ticksLeft, h]

theorem Motor.ticksLeft_of_running (h : m.running = true) :
    m.ticksLeft div = sext16 m.steps * (div.get m.speed : Int) - sext16 m.phase := by
  simp [Motor.ticksLeft, h]

/-- A running record has a step left, and its phase is below the divisor (R35, R36), so ticks are left. -/
theorem Motor.Inv.running_iff_ticksLeft (h : m.Inv div) : m.running = true ↔ 0 < m.ticksLeft div := by
  cases hrun : m.running with
  | false => simp [Motor.ticksLeft_of_idle hrun]
  | true =>
    obtain ⟨-, hbelow⟩ := h.phase_range hrun
    have hone : (div.get m.speed : Int) ≤ sext16 m.steps * (div.get m.speed : Int) :=
      le_mul_of_one_le_left (Int.natCast_nonneg _) (h.one_le_steps hrun)
    rw [Motor.ticksLeft_of_running hrun]
    exact iff_of_true rfl (by omega)

/-- After a pulse whole periods are left, one for each step still to come (R83, R84). -/
theorem Motor.pulsed_ticksLeft (hrun : m.running = true) (hpos : 1 ≤ sext16 m.steps) :
    ({ m.loadLatches.countDown with phase := 0#16 } : Motor).ticksLeft div =
      (sext16 m.steps - 1) * (div.get m.speed : Int) := by
  have hcount : sext16 (m.steps - 1#16) = sext16 m.steps - 1 := sext16_sub_one (by omega)
  rw [← hcount]
  by_cases hlast : m.steps - 1#16 = 0#16
  · simp [Motor.ticksLeft, runningAfter, hlast, sext16]
  · simp [Motor.ticksLeft, runningAfter, hlast, hrun, sext16]

/-- An advance takes one tick off: by the phase, or at the end of a period by its pulse (R82 to R84). -/
theorem Motor.advanced_ticksLeft (hdiv : div.Legal) (h : m.Inv div) (hrun : m.running = true) :
    (m.advanced div).ticksLeft div = m.ticksLeft div - 1 := by
  have hstep := h.one_le_steps hrun
  obtain ⟨-, hbelow⟩ := h.phase_range hrun
  have hnext := h.next_phase hdiv hrun
  obtain ⟨-, -, ha⟩ | ⟨hdue, -, -, ha⟩ | ⟨-, hnone, -, -⟩ := m.advanced_cases div
  · rw [ha]
    simp only [Motor.ticksLeft, hrun, hnext, if_true]
    omega
  · have hend : (div.get m.speed : Int) = sext16 m.phase + 1 := by
      have hreached := (m.due_eq_true_iff div).1 hdue
      omega
    rw [ha, Motor.pulsed_ticksLeft hrun hstep, Motor.ticksLeft_of_running hrun, Int.sub_mul]
    omega
  · omega

/-- The ticks of a new move (R89, R110): an idle record loads its count at phase 0. -/
theorem Motor.loadCount_ticksLeft {v : Int} (hidle : m.running = false) (hfit : countInRange v = true) :
    (m.loadCount v).ticksLeft div = (moveTicks div v.toNat m.speed : Int) := by
  obtain ⟨hpos, hm⟩ | ⟨hnone, hm⟩ := m.loadCount_cases v <;> rw [hm]
  · have hv : (v.toNat : Int) = v := Int.toNat_of_nonneg (by omega)
    simp [Motor.ticksLeft, moveTicks, sext16_toWord16 hfit, hv, show sext16 0#16 = 0 from rfl]
  · rw [Motor.ticksLeft_of_idle (m := m.clearSteps) hidle]
    simp [moveTicks, Int.toNat_of_nonpos hnone]

end Record

/-! ### Steps that leave moves to the engine -/

/-- Neither event of the reset source spares moves. -/
theorem nextEvent_ne_of_sparesMoves {s : State} (h : s.sparesMoves = true) :
    s.nextEvent ≠ some .reset ∧ s.nextEvent ≠ some .setupFailed := by
  constructor <;> intro he <;> simp [State.sparesMoves, he, Event.sparesMoves] at h

/-- A step that spares moves is no `ENABLE 0` and no accepted `SET_STEPS` (R41). -/
theorem nextCommand_of_sparesMoves {s : State} (h : s.sparesMoves = true) :
    s.nextCommand ≠ some (.enable false) ∧ ¬ s.takesSetSteps := by
  have hspares (i : Instr) (hc : s.nextCommand = some i) : commandSparesMoves s.anyBusy i = true := by
    obtain ⟨e, he, hi⟩ := Option.bind_eq_some_iff.1 hc
    cases e with
    | cmd w => simpa [State.sparesMoves, he, Event.sparesMoves, hi] using h
    | reset | setupFailed | tick => simp [Event.command] at hi
  refine ⟨fun hc => ?_, fun ⟨⟨l, r, hc⟩, hl, hr⟩ => ?_⟩
  · simpa [commandSparesMoves] using hspares _ hc
  · simpa [commandSparesMoves, s.anyBusy_eq_false.2 ⟨hl, hr⟩] using hspares _ hc

/-- A step that spares moves is a tick that advances the side, or leaves the side's move as it is. -/
theorem step_side_of_sparesMoves {s t : State} (h : step s = .next t) (hspares : s.sparesMoves = true) (side : Side) :
    (s.gatedTick = true ∧ (s.motor side).running = true ∧ t.motor side = (s.motor side).advanced s.pulseDiv ∧
      t.pulses.has side = (s.motor side).emits s.pulseDiv) ∨
    ((s.gatedTick && (s.motor side).running) = false ∧ t.pulses.has side = false ∧
      (t.motor side).running = (s.motor side).running ∧ (t.motor side).steps = (s.motor side).steps ∧
      ((t.motor side).running = true → t.motor side = s.motor side)) := by
  by_cases he : s.nextEvent = some .tick
  · obtain ⟨hm, hp⟩ := motor_of_step_tick h he side
    have hgated : s.gatedTick = s.gateOpen := by simp [State.gatedTick, he]
    cases ha : s.advances side with
    | true =>
      obtain ⟨hopen, hrun⟩ := Bool.and_eq_true_iff.1 ha
      exact .inl ⟨hgated.trans hopen, hrun, by simpa [ha] using hm, by simpa [ha] using hp⟩
    | false =>
      have hkept : t.motor side = s.motor side := by simpa [ha] using hm
      exact .inr ⟨hgated ▸ ha, by simpa [ha] using hp, by rw [hkept], by rw [hkept], fun _ => hkept⟩
  · obtain ⟨hen, hset⟩ := nextCommand_of_sparesMoves hspares
    have hkept := (step_side h (nextEvent_ne_of_sparesMoves hspares).1 side).spared he hen hset
    exact .inr ⟨by simp [State.gatedTick, he], by rw [pulses_of_step_off_tick h he, Pulses.has_empty], hkept⟩

theorem ticksLeft_of_sparesMoves {s t : State} {side : Side} (hready : s.Ready) (hs : s.Inv)
    (h : step s = .next t) (hspares : s.sparesMoves = true) :
    t.ticksLeft side = s.ticksLeft side - if s.gatedTick && (s.motor side).running then 1 else 0 := by
  rw [State.ticksLeft_eq, State.ticksLeft_eq, (step_pulseDiv_resetDone h).1]
  obtain ⟨hgated, hrun, hm, -⟩ | ⟨hnot, -, hruns, -, hkept⟩ := step_side_of_sparesMoves h hspares side
  · rw [hm, hgated, hrun, Motor.advanced_ticksLeft hs.1 (hs.motor hready side) hrun]
    rfl
  · rw [hnot]
    cases hrun : (t.motor side).running with
    | false => simp [Motor.ticksLeft_of_idle hrun, Motor.ticksLeft_of_idle (hruns ▸ hrun)]
    | true => simp [hkept hrun]

/-- Settles O48: each clause is the change of one record's ticks. -/
theorem stepCountsDownTheMove : Obligations.StepCountsDownTheMove := by
  intro s t side hready hs h
  refine ⟨(hs.motor hready side).running_iff_ticksLeft, ticksLeft_of_sparesMoves hready hs h, fun l r hc hl hr => ?_,
    fun hstop => ?_⟩
  · obtain ⟨hm, hfit⟩ := motor_of_step_setSteps h hc hl hr side
    rw [State.ticksLeft_eq, (step_pulseDiv_resetDone h).1, hm]
    exact Motor.loadCount_ticksLeft (State.running_eq_false_of_idle hl hr side) hfit
  · refine ticksLeft_of_idle ?_
    obtain hen | hr := hstop
    · rw [motor_of_step_disable h hen, Motor.stop_running]
    · rw [motor_of_step_reset h hr, Motor.reset]

end Sys2Proof.Machine
end

section
/-! A move from its arming (R89): how far it has come is an invariant of the steps that spare moves (`MoveProgress`), in
which the advancing ticks so far fix the pulses so far (`MoveProgress.pulses_eq`). -/

namespace Sys2Proof.Machine

/-! ### The steps of a move complete -/

/-- Every command completes (R140). -/
theorem exec_total (i : Instr) (s : State) : ∃ t, exec i s = .next t := by
  cases i with
  | enable b | setRunning b | status => exact ⟨_, rfl⟩
  | setDirection side d =>
    rw [exec_setDirection, writeIdleSide]
    split <;> exact ⟨_, rfl⟩
  | setSpeed side p =>
    rw [exec_setSpeed, writeIdleSide]
    split <;> exact ⟨_, rfl⟩
  | setSteps l r =>
    simp only [exec, execSetSteps]
    split <;> exact ⟨_, rfl⟩

/-- Where the next event spares moves, the step of a ready state answers a next state (R140, R144). -/
theorem exists_step_of_sparesMoves {s : State} (hs : s.Ready) (hspares : s.sparesMoves = true) :
    ∃ t, step s = .next t := by
  cases hu : s.upcoming with
  | nil => exact ⟨_, step_of_no_event hs.1 hu⟩
  | cons e rest =>
    cases e with
    | tick => exact ⟨_, step_of_tick hs hu⟩
    | reset => simp [not_sparesMoves_of_reset hu] at hspares
    | setupFailed => simp [not_sparesMoves_of_setupFailed hu] at hspares
    | cmd w =>
      cases hd : decode w with
      | ok i => exact step_of_command hs hu hd ▸ exec_total i _
      | error e => simp [not_sparesMoves_of_reserved hu hd] at hspares

/-- Only `SetupFailed` ends readiness (R43, R162). -/
theorem ready_of_step {s t : State} (hs : s.Ready) (h : step s = .next t) (he : s.nextEvent ≠ some .setupFailed) :
    t.Ready := by
  obtain ⟨-, -, hdone⟩ := stepTakesOneEvent s t h
  refine ⟨?_, by simp [hdone, hs.2]⟩
  by_contra hfault
  exact he (nextEvent_of_step_faulted h (by simpa using hfault))

/-! ### The progress of a move -/

/-- A running record that an advance stops has no step left (R84). -/
theorem Motor.advanced_done {div : PulseDiv} {m : Motor} (h : m.Inv div) (hrun : m.running = true)
    (hstop : (m.advanced div).running = false) : sext16 (m.advanced div).steps = 0 := by
  have hpos := h.one_le_steps hrun
  obtain ⟨-, -, ha⟩ | ⟨-, -, -, ha⟩ | ⟨-, hnone, -, -⟩ := m.advanced_cases div
  · simp [ha, hrun] at hstop
  · have hlast : m.steps - 1#16 = 0#16 := by simpa [ha, runningAfter, hrun] using hstop
    simp [ha, hlast, sext16]
  · omega

/-- An advance that pulses drives the lines at the record's set-up (R83). -/
theorem Motor.advanced_latches_of_emits {div : PulseDiv} {m : Motor} (h : m.emits div = true) :
    (m.advanced div).dirOut = m.direction ∧ (m.advanced div).msOut = m.speed := by
  rw [Motor.advanced_of_emits h]
  exact ⟨rfl, rfl⟩

/-- A side on its move of `n` steps from the record `m₀`, after `a` advancing ticks and `p` pulses (R89): `PULSE_DIV` is
`div`, the move's ticks less `a` and its steps less `p` are left, and the side stops with no step left. -/
structure MoveProgress (div : PulseDiv) (side : Side) (n : Nat) (m₀ : Motor) (a p : Nat) (s : State) : Prop where
  ready : s.Ready
  inv : s.Inv
  period : s.pulseDiv = div
  setup : (s.motor side).running = true →
    (s.motor side).direction = m₀.direction ∧ (s.motor side).speed = m₀.speed
  ticks : s.ticksLeft side = ((moveTicks div n m₀.speed - a : Nat) : Int)
  steps : sext16 (s.motor side).steps = n - p
  done : (s.motor side).running = false → sext16 (s.motor side).steps = 0

section Progress
variable {div : PulseDiv} {side : Side} {n : Nat} {m₀ : Motor} {a p : Nat} {s t : State}

theorem MoveProgress.motor_inv (h : MoveProgress div side n m₀ a p s) : (s.motor side).Inv div :=
  h.period ▸ h.inv.motor h.ready side

theorem MoveProgress.running_iff (h : MoveProgress div side n m₀ a p s) :
    (s.motor side).running = true ↔ a < moveTicks div n m₀.speed := by
  have hticks := h.ticks
  rw [State.ticksLeft_eq, h.period] at hticks
  rw [h.motor_inv.running_iff_ticksLeft, hticks]
  omega

/-- While the side runs, the ticks so far are its pulses' whole periods and its phase. -/
theorem MoveProgress.ticks_eq (h : MoveProgress div side n m₀ a p s) (hrun : (s.motor side).running = true) :
    (a : Int) = p * (div.get m₀.speed : Int) + sext16 (s.motor side).phase := by
  have hticks := h.ticks
  have hbelow := h.running_iff.1 hrun
  rw [ticksLeft_of_running hrun, h.period, (h.setup hrun).2, h.steps, Int.sub_mul] at hticks
  simp only [moveTicks] at hticks hbelow
  push_cast [Nat.cast_sub hbelow.le] at hticks
  omega

/-- A pulse comes at the end of each period, and the last is the `n`-th (R82 to R84). -/
theorem MoveProgress.pulses_eq (h : MoveProgress div side n m₀ a p s) : p = min n (a / div.get m₀.speed) := by
  have hsteps := h.steps
  cases hrun : (s.motor side).running with
  | true =>
    obtain ⟨hnonneg, hbelow⟩ := h.motor_inv.phase_range hrun
    rw [(h.setup hrun).2] at hbelow
    obtain ⟨f, hf⟩ := Int.eq_ofNat_of_zero_le hnonneg
    have hpos := h.motor_inv.one_le_steps hrun
    have hticks := h.ticks_eq hrun
    rw [hf] at hticks hbelow
    have ha : a = p * div.get m₀.speed + f := by exact_mod_cast hticks
    have hquot : a / div.get m₀.speed = p := by
      have hfit : f < div.get m₀.speed := by exact_mod_cast hbelow
      refine Nat.div_eq_of_lt_le (by omega) ?_
      rw [Nat.succ_mul]
      omega
    omega
  | false =>
    have hover : moveTicks div n m₀.speed ≤ a := by simpa [hrun] using h.running_iff
    have hpos : 0 < div.get m₀.speed := (h.period ▸ h.inv.1 m₀.speed).1
    have hquot : n ≤ a / div.get m₀.speed := (Nat.le_div_iff_mul_le hpos).2 hover
    have hzero := h.done hrun
    omega

theorem MoveProgress.ticks_next (h : MoveProgress div side n m₀ a p s) (hstep : step s = .next t)
    (hspares : s.sparesMoves = true) :
    t.ticksLeft side = ((moveTicks div n m₀.speed - (a + if s.gatedTick then 1 else 0) : Nat) : Int) := by
  rw [ticksLeft_of_sparesMoves h.ready h.inv hstep hspares, h.ticks]
  cases s.gatedTick with
  | false => simp
  | true =>
    cases hrun : (s.motor side).running with
    | true =>
      have hbelow := h.running_iff.1 hrun
      simp
      omega
    | false =>
      have hover : moveTicks div n m₀.speed ≤ a := by simpa [hrun] using h.running_iff
      simp
      omega

/-- A step that spares moves takes the move on by its tick and by its pulse. -/
theorem MoveProgress.next (h : MoveProgress div side n m₀ a p s) (hstep : step s = .next t)
    (hspares : s.sparesMoves = true) :
    MoveProgress div side n m₀ (a + if s.gatedTick then 1 else 0) (p + if t.pulses.has side then 1 else 0) t ∧
    (t.pulses.has side = true → (t.motor side).dirOut = m₀.direction ∧ (t.motor side).msOut = m₀.speed) := by
  have hready := ready_of_step h.ready hstep (nextEvent_ne_of_sparesMoves hspares).2
  have hinv := step_inv h.inv hstep
  have hperiod := (step_pulseDiv_resetDone hstep).1.trans h.period
  have hticks := h.ticks_next hstep hspares
  obtain ⟨-, hrun, hm, hp⟩ | ⟨-, hp, hruns, hsteps, hkept⟩ := step_side_of_sparesMoves hstep hspares side
  · rw [h.period] at hm hp
    obtain ⟨hdir, hspeed⟩ := h.setup hrun
    obtain ⟨hdir', hspeed'⟩ := (s.motor side).advanced_setup div
    refine ⟨⟨hready, hinv, hperiod, fun _ => ?_, hticks, ?_, fun hstop => ?_⟩, fun hpulse => ?_⟩
    · rw [hm, hdir', hspeed']
      exact ⟨hdir, hspeed⟩
    · rw [hm, Motor.advanced_steps, h.steps, hp]
      split <;> push_cast <;> omega
    · rw [hm] at hstop ⊢
      exact Motor.advanced_done h.motor_inv hrun hstop
    · rw [hm, ← hdir, ← hspeed]
      exact Motor.advanced_latches_of_emits (hp ▸ hpulse)
  · refine ⟨⟨hready, hinv, hperiod, fun hrun => ?_, hticks, ?_, fun hstop => ?_⟩, fun hpulse => ?_⟩
    · rw [hkept hrun]
      exact h.setup (hruns ▸ hrun)
    · simpa [hsteps, hp] using h.steps
    · rw [hsteps]
      exact h.done (hruns ▸ hstop)
    · simp [hp] at hpulse

/-- The move along a run of steps that spare moves. -/
theorem MoveProgress.run (k : Nat) : ∀ (s : State) (a p : Nat), MoveProgress div side n m₀ a p s →
    (∀ u ∈ (s :: statesAfter k s).take k, u.sparesMoves = true) →
    (statesAfter k s).length = k ∧
    (∀ t ∈ statesAfter k s, t.pulses.has side = true →
      (t.motor side).dirOut = m₀.direction ∧ (t.motor side).msOut = m₀.speed) ∧
    ∃ t, (s :: statesAfter k s).getLast? = some t ∧
      MoveProgress div side n m₀ (a + gatedTicks k s) (p + pulseCount side (statesAfter k s)) t := by
  induction k with
  | zero => exact fun s a p h _ => ⟨rfl, fun t ht => by simp [statesAfter] at ht, s, rfl, h⟩
  | succ k ih =>
    intro s a p h hspares
    have hfirst : s.sparesMoves = true := hspares s (by simp)
    obtain ⟨u, hu⟩ := exists_step_of_sparesMoves h.ready hfirst
    obtain ⟨hprogress, hlines⟩ := h.next hu hfirst
    rw [statesAfter_succ_of_next k hu, List.take_succ_cons] at hspares
    obtain ⟨hlength, hpulses, t, hlast, ht⟩ := ih u _ _ hprogress fun v hv => hspares v (.tail _ hv)
    rw [statesAfter_succ_of_next k hu, gatedTicks_succ_of_next k hu, pulseCount_cons]
    refine ⟨by rw [List.length_cons, hlength], List.forall_mem_cons.2 ⟨hlines, hpulses⟩, t, ?_, ?_⟩
    · rw [List.getLast?_cons_cons, hlast]
    · convert ht using 1 <;> omega

end Progress

/-! ### A move from its arming -/

/-- The arming starts a move: no tick and no pulse yet (R110). -/
theorem MoveProgress.start {s t : State} {l r : Int} {side : Side} {n : Nat} (hs : s.Ready) (hinv : s.Inv)
    (hl : s.left.running = false) (hr : s.right.running = false) (hc : s.nextCommand = some (.setSteps l r))
    (hn : countFor l r side = n) (hpos : 1 ≤ n) (h : step s = .next t) :
    MoveProgress s.pulseDiv side n (s.motor side) 0 0 t := by
  obtain ⟨hm, hfit⟩ := motor_of_step_setSteps h hc hl hr side
  have hidle := State.running_eq_false_of_idle hl hr side
  have hperiod := (step_pulseDiv_resetDone h).1
  have hticks : t.ticksLeft side = (moveTicks s.pulseDiv n (s.motor side).speed : Int) := by
    rw [State.ticksLeft_eq, hperiod, hm, Motor.loadCount_ticksLeft hidle hfit, hn, Int.toNat_natCast]
  have harm : t.motor side = (s.motor side).arm n := by
    obtain ⟨-, ha⟩ | ⟨hnone, -⟩ := (s.motor side).loadCount_cases (countFor l r side)
    · rw [hm, ha, hn]
    · omega
  have he : s.nextEvent ≠ some .setupFailed := by
    intro he
    simp [State.nextCommand, he, Event.command] at hc
  refine ⟨ready_of_step hs h he, step_inv hinv h, hperiod, fun _ => ?_, hticks, ?_, fun hstop => ?_⟩
  · rw [harm]
    exact ⟨rfl, rfl⟩
  · simp [harm, sext16_toWord16 (hn ▸ hfit)]
  · simp [harm] at hstop

/-- A run of `k` steps from an arming, all of which spare moves. -/
theorem run_of_armed_side {s₀ : State} {w : CmdWord} {es : List Event} {l r : Int} {side : Side} {n k : Nat}
    (hs : s₀.Ready) (hinv : s₀.Inv) (hl : s₀.left.running = false) (hr : s₀.right.running = false)
    (hu : s₀.upcoming = .cmd w :: es) (hd : decode w = .ok (.setSteps l r)) (hn : countFor l r side = n) (hpos : 1 ≤ n)
    (hspares : ∀ u ∈ (statesAfter (k + 1) s₀).take k, u.sparesMoves = true) :
    ∃ s, step s₀ = .next s ∧ s.pulseDiv = s₀.pulseDiv ∧ (s.motor side).speed = (s₀.motor side).speed ∧
      (statesAfter k s).length = k ∧
      (∀ t ∈ statesAfter k s, t.pulses.has side = true →
        (t.motor side).dirOut = (s₀.motor side).direction ∧ (t.motor side).msOut = (s₀.motor side).speed) ∧
      ∃ t, (s :: statesAfter k s).getLast? = some t ∧
        MoveProgress s₀.pulseDiv side n (s₀.motor side) (gatedTicks k s) (pulseCount side (statesAfter k s)) t := by
  obtain ⟨s, hx⟩ := exec_total (.setSteps l r) (s₀.deliver es)
  have hstep : step s₀ = .next s := (step_of_command hs hu hd).trans hx
  have hstart := MoveProgress.start hs hinv hl hr (nextCommand_of_upcoming hu hd) hn hpos hstep
  have hticks : 0 < moveTicks s₀.pulseDiv n (s₀.motor side).speed := Nat.mul_pos hpos (hinv.1 _).1
  obtain ⟨-, hspeed⟩ := hstart.setup (hstart.running_iff.2 hticks)
  rw [statesAfter_succ_of_next k hstep] at hspares
  obtain ⟨hlength, hlines, t, hlast, hprogress⟩ := MoveProgress.run k s 0 0 hstart hspares
  rw [Nat.zero_add, Nat.zero_add] at hprogress
  exact ⟨s, hstep, hstart.period, hspeed, hlength, hlines, t, hlast, hprogress⟩

/-- Settles O42: the progress of the move at the end of the run. -/
theorem moveEmitsExactlyItsPulses : Obligations.MoveEmitsExactlyItsPulses := by
  intro s₀ w es l r side n k hs hinv hl hr hu hd hn hpos hspares
  obtain ⟨s, hstep, hperiod, hspeed, hlength, hlines, t, hlast, hprogress⟩ :=
    run_of_armed_side hs hinv hl hr hu hd hn hpos hspares
  refine ⟨s, hstep, ?_⟩
  rw [hperiod, hspeed]
  refine ⟨hlength, hprogress.pulses_eq, hlines, fun t' ht' => ?_⟩
  obtain rfl : t' = t := Option.some.inj (ht'.symm.trans hlast)
  rw [← hprogress.pulses_eq]
  exact ⟨hprogress.running_iff, hprogress.steps⟩

/-! ### Ticks as time -/

theorem moveSeconds_eq (bd : Board) (div : PulseDiv) (n : Nat) (sp : Resolution) :
    moveSeconds bd div n sp = (n : Rat) * (div.get sp : Rat) / bd.tickHz := by
  simp [moveSeconds, moveTicks, tickPeriod, div_eq_mul_inv]

/-- Ticks are in the order of their times. -/
theorem elapsed_lt_moveSeconds_iff {bd : Board} (hz : 0 < bd.tickHz) (div : PulseDiv) (n a : Nat) (sp : Resolution) :
    (a : Rat) * tickPeriod bd < moveSeconds bd div n sp ↔ a < moveTicks div n sp := by
  have hperiod : 0 < tickPeriod bd := one_div_pos.2 hz
  rw [moveSeconds, mul_lt_mul_iff_left₀ hperiod, Nat.cast_lt]

/-- At the pulse rate, the pulses of a time are its ticks over `PULSE_DIV` (R174). -/
theorem floor_elapsed_mul_pulseRate {bd : Board} (hz : 0 < bd.tickHz) (div : PulseDiv) (a : Nat) (sp : Resolution) :
    ((a : Rat) * tickPeriod bd * pulseRate bd div sp).floor = ((a / div.get sp : Nat) : Int) := by
  have hquot : (a : Rat) * tickPeriod bd * pulseRate bd div sp = (a : Rat) / (div.get sp : Rat) := by
    rw [tickPeriod, pulseRate, mul_assoc, one_div, inv_mul_eq_div, div_div_cancel_left' hz.ne', div_eq_mul_inv]
  rw [hquot]
  exact Rat.floor_natCast_div_natCast a (div.get sp)

/-- A move of some steps takes the same ticks at every resolution exactly when `PULSE_DIV` is the same (R91). -/
theorem moveTicks_eq_iff (div : PulseDiv) {n : Nat} (hn : 1 ≤ n) (a b : Resolution) :
    moveTicks div n a = moveTicks div n b ↔ div.get a = div.get b :=
  Nat.mul_right_inj (by omega)

theorem get_default (sp : Resolution) : PulseDiv.default.get sp = 1 := by
  cases sp <;> rfl

/-- Settles O46: the run clause is the progress of the move, with its ticks read as time. -/
theorem moveDuration : Obligations.MoveDuration := by
  refine ⟨fun bd s₀ w es l r side n k hs hinv hl hr hu hd hn hpos hz hspares => ?_, moveSeconds_eq,
    fun div n hn => by simp only [moveTicks_eq_iff div hn], fun bd n sp => ?_⟩
  · obtain ⟨s, hstep, -, -, -, -, t, hlast, hprogress⟩ := run_of_armed_side hs hinv hl hr hu hd hn hpos hspares
    refine ⟨s, hstep, fun t' ht' => ?_⟩
    obtain rfl : t' = t := Option.some.inj (ht'.symm.trans hlast)
    refine ⟨hprogress.running_iff, ?_, fun hrun => ?_⟩
    · rw [elapsed_lt_moveSeconds_iff hz]
      exact hprogress.running_iff
    · have hbelow : gatedTicks k s / s₀.pulseDiv.get (s₀.motor side).speed < n :=
        Nat.div_lt_of_lt_mul (by simpa [moveTicks, Nat.mul_comm] using hprogress.running_iff.1 hrun)
      rw [floor_elapsed_mul_pulseRate hz, hprogress.pulses_eq, min_eq_right hbelow.le]
  · simp [moveTicks, pulseRate, moveSeconds_eq, get_default]

end Sys2Proof.Machine
end

section
/-! The global control commands (R95 to R104): `SET_RUNNING` opens or closes the gate, and the steps of a closed gate
leave both records (`State.Resumes`); `ENABLE 0` stops both sides, and only `SET_STEPS` starts one again
(`State.Abandoned`). -/

namespace Sys2Proof.Machine

/-! ### One command -/

/-- Settles O14: `ENABLE 1` is the write of the flag, and `ENABLE 0` the write and the stop of both sides. -/
theorem enableCommand : Obligations.EnableCommand := by
  intro b s
  cases b with
  | true => exact ⟨s.setEnable true, rfl, rfl, rfl, s.motor_setEnable true, fun _ => rfl, by decide⟩
  | false =>
    exact ⟨(s.setEnable false).stopBoth, rfl, rfl, rfl, (s.setEnable false).motor_stopBoth, fun _ => rfl, by decide⟩

/-- Settles O15: the command is the write of the gate. -/
theorem setRunningCommand : Obligations.SetRunningCommand :=
  fun b s => ⟨s.setRunGate b, rfl, rfl, rfl, s.motor_setRunGate b, by cases b <;> decide⟩

/-- Settles O16: the fields of the block by the effect of each command, the model's own by `exec_carries`. -/
theorem globalControlFrame : Obligations.GlobalControlFrame := by
  refine fun b s t => ⟨fun h => ?_, fun h => ?_⟩
  · obtain ⟨t', h', -, hgate, hm, -⟩ := enableCommand b s
    obtain rfl : t' = t := Host.Outcome.next.inj (h'.symm.trans h)
    obtain ⟨hfault, hdone, hdiv, hrest, hpulses, hresp⟩ := exec_carries h
    refine ⟨hgate, fun side => ?_, hfault, hdone, hdiv, hrest, hpulses, hresp nofun⟩
    rw [hm side]
    exact ⟨rfl, rfl, rfl, rfl, rfl, rfl, fun hb => if_pos hb⟩
  · obtain ⟨t', h', -, hen, hm, -⟩ := setRunningCommand b s
    obtain rfl : t' = t := Host.Outcome.next.inj (h'.symm.trans h)
    obtain ⟨hfault, hdone, hdiv, hrest, hpulses, hresp⟩ := exec_carries h
    exact ⟨hen, hm, hfault, hdone, hdiv, hrest, hpulses, hresp nofun⟩

theorem Event.command_eq_some {e : Event} {i : Instr} (h : e.command = some i) :
    ∃ w, e = .cmd w ∧ decode w = .ok i := by
  cases e with
  | cmd w =>
    cases hd : decode w with
    | ok j => exact ⟨w, rfl, by simpa [Event.command, hd, Except.toOption] using h⟩
    | error r => simp [Event.command, hd, Except.toOption] at h
  | reset | setupFailed | tick => simp [Event.command] at h

/-! ### Pause and resume -/

theorem step_of_setRunning {s : State} {w : CmdWord} {rest : List Event} {b : Bool} (hs : s.Ready)
    (hu : s.upcoming = .cmd w :: rest) (hd : decode w = .ok (.setRunning b)) :
    step s = .next ((s.deliver rest).setRunGate b) :=
  step_of_command hs hu hd

/-- While the gate is closed, a tick or a `STATUS` only ends the output of the event before it and may respond
(R92, R120). -/
theorem step_of_paused {s : State} {e : Event} {rest : List Event} (hs : s.Ready) (hgate : s.runGate = false)
    (hu : s.upcoming = e :: rest) (he : e = .tick ∨ e.command = some .status) :
    ∃ v, step s = .next { s.deliver rest with response := v } := by
  obtain rfl | hc := he
  · obtain ⟨t, hstep, rfl, -⟩ := idleTickChangesNothing s rest hs hu (.inl hgate)
    exact ⟨none, hstep⟩
  · obtain ⟨w, rfl, hd⟩ := Event.command_eq_some hc
    exact ⟨some (s.deliver rest).statusWord, step_of_command hs hu hd⟩

/-- The next `k` steps complete with no pulse, both records and `ENABLE` as they are now and the gate open (R101). -/
def State.Resumes (k : Nat) (s : State) : Prop :=
  (∀ t ∈ statesAfter k s, ∀ side, t.pulses.has side = false) ∧
  ∃ t, Host.Core.run Sys2Proof.core k s = .next t ∧
    (∀ side, t.motor side = s.motor side) ∧ t.enable = s.enable ∧ t.runGate = true

theorem State.resumes_zero {s : State} (hgate : s.runGate = true) : s.Resumes 0 :=
  ⟨fun t ht => by simp [statesAfter] at ht, s, rfl, fun _ => rfl, rfl, hgate⟩

/-- A step without a pulse that leaves the records and `ENABLE` may go before a run that resumes. -/
theorem State.Resumes.cons {s u : State} {k : Nat} (h : u.Resumes k) (hstep : step s = .next u)
    (hpulses : u.pulses = Pulses.empty) (hm : ∀ side, u.motor side = s.motor side) (hen : u.enable = s.enable) :
    s.Resumes (k + 1) := by
  obtain ⟨hquiet, t, hrun, hmt, hent, hgate⟩ := h
  rw [State.Resumes, statesAfter_succ_of_next k hstep, run_succ_of_next k hstep]
  refine ⟨List.forall_mem_cons.2 ⟨fun side => ?_, hquiet⟩, t, hrun, fun side => (hmt side).trans (hm side),
    hent.trans hen, hgate⟩
  rw [hpulses, Pulses.has_empty]

theorem resumes_of_paused {w : CmdWord} {rest : List Event} (hd : decode w = .ok (.setRunning true))
    (es : List Event) : ∀ s : State, s.Ready → s.runGate = false → s.upcoming = es ++ .cmd w :: rest →
    (∀ e ∈ es, e = .tick ∨ e.command = some .status) → s.Resumes (es.length + 1) := by
  induction es with
  | nil =>
    intro s hs _ hu _
    exact (State.resumes_zero rfl).cons (step_of_setRunning hs hu hd) rfl (fun side => by simp) rfl
  | cons e es ih =>
    intro s hs hgate hu hes
    obtain ⟨he, hes⟩ := List.forall_mem_cons.1 hes
    obtain ⟨v, hstep⟩ := step_of_paused hs hgate hu he
    refine State.Resumes.cons ?_ hstep rfl (s.motor_deliver (es ++ .cmd w :: rest)) rfl
    exact ih _ hs hgate rfl hes

/-- Settles O44: the closing of the gate goes before the paused events and the opening (`State.Resumes.cons`). -/
theorem pauseAndResume : Obligations.PauseAndResume := by
  intro s w₀ w₁ es rest hs hu hd₀ hd₁ hes
  refine State.Resumes.cons ?_ (step_of_setRunning hs hu hd₀) rfl (fun side => by simp) rfl
  exact resumes_of_paused hd₁ es _ hs rfl rfl hes

/-! ### An abandoned move -/

/-- A run whose events all meet `E`, from a state that meets `P`, completes in states that meet `P`, if every step at such
an event, or at none, does. -/
theorem statesAfter_of_events {P : State → Prop} {E : Event → Prop}
    (hnext : ∀ s, P s → (∀ e, s.nextEvent = some e → E e) → ∃ t, step s = .next t ∧ P t) (k : Nat) :
    ∀ s, P s → (∀ e ∈ s.upcoming.take k, E e) → (statesAfter k s).length = k ∧ ∀ t ∈ statesAfter k s, P t := by
  induction k with
  | zero => exact fun _ _ _ => ⟨rfl, fun t ht => by simp [statesAfter] at ht⟩
  | succ k ih =>
    intro s hs hE
    have hsplit : (∀ e, s.nextEvent = some e → E e) ∧ ∀ e ∈ s.upcoming.tail.take k, E e := by
      unfold State.nextEvent
      cases hu : s.upcoming with
      | nil => simp
      | cons e es => simpa [hu] using hE
    obtain ⟨hfirst, hrest⟩ := hsplit
    obtain ⟨t, hstep, ht⟩ := hnext s hs hfirst
    obtain ⟨hlength, hall⟩ := ih t ht (step_upcoming hstep ▸ hrest)
    rw [statesAfter_succ_of_next k hstep]
    exact ⟨by rw [List.length_cons, hlength], List.forall_mem_cons.2 ⟨ht, hall⟩⟩

/-- A tick, or a command that starts no side (R110). -/
def Event.StartsNoSide (e : Event) : Prop := e = .tick ∨ ∃ i, e.command = some i ∧ ∀ l r, i ≠ .setSteps l r

theorem exists_step_of_startsNoSide {s : State} (hs : s.Ready) (he : ∀ e, s.nextEvent = some e → e.StartsNoSide) :
    ∃ t, step s = .next t := by
  cases hu : s.upcoming with
  | nil => exact ⟨_, step_of_no_event hs.1 hu⟩
  | cons e rest =>
    obtain rfl | ⟨i, hc, -⟩ := he e (nextEvent_of_upcoming hu)
    · exact ⟨_, step_of_tick hs hu⟩
    · obtain ⟨w, rfl, hd⟩ := Event.command_eq_some hc
      exact step_of_command hs hu hd ▸ exec_total i _

/-- A step whose event starts no side is none of the reset source's and no `SET_STEPS`. -/
theorem nextEvent_ne_of_startsNoSide {s : State} (he : ∀ e, s.nextEvent = some e → e.StartsNoSide) :
    s.nextEvent ≠ some .reset ∧ s.nextEvent ≠ some .setupFailed ∧ ∀ l r, s.nextCommand ≠ some (.setSteps l r) := by
  refine ⟨fun hr => ?_, fun hf => ?_, fun l r hc => ?_⟩
  · simpa [Event.StartsNoSide, Event.command] using he _ hr
  · simpa [Event.StartsNoSide, Event.command] using he _ hf
  · obtain ⟨e, hn, hi⟩ := Option.bind_eq_some_iff.1 hc
    obtain rfl | ⟨i, hj, hne⟩ := he e hn
    · simp [Event.command] at hi
    · exact hne l r (Option.some.inj (hj.symm.trans hi))

/-- An idle side does not pulse (R81, R131). -/
theorem no_pulse_of_idle {s t : State} {side : Side} (h : step s = .next t) (hidle : (s.motor side).running = false) :
    t.pulses.has side = false := by
  by_cases he : s.nextEvent = some .tick
  · rw [(motor_of_step_tick h he side).2]
    simp [State.advances, hidle]
  · rw [pulses_of_step_off_tick h he, Pulses.has_empty]

/-- A ready state with both sides idle at the given counts, after an event without a pulse (R97, R98). -/
structure State.Abandoned (n : Side → Word16) (s : State) : Prop where
  ready : s.Ready
  quiet : ∀ side, s.pulses.has side = false
  idle : ∀ side, (s.motor side).running = false
  steps : ∀ side, (s.motor side).steps = n side

/-- `ENABLE 0` abandons both moves with their remaining counts (R95). -/
theorem abandoned_of_disable {s t : State} (hs : s.Ready) (hc : s.nextCommand = some (.enable false))
    (h : step s = .next t) : t.Abandoned fun side => (s.motor side).steps := by
  have hm := motor_of_step_disable h hc
  have hne (e : Event) (he : e.command = none) : s.nextEvent ≠ some e := by
    intro hn
    simp [State.nextCommand, hn, he] at hc
  refine ⟨ready_of_step hs h (hne _ rfl), fun side => ?_, fun side => ?_, fun side => ?_⟩
  · rw [pulses_of_step_off_tick h (hne _ rfl), Pulses.has_empty]
  · rw [hm, Motor.stop_running]
  · rw [hm, Motor.stop_steps]

/-- Only a `SET_STEPS` would start a side, and only it or a pulse would write a count (`SideStep`). -/
theorem State.Abandoned.next {n : Side → Word16} {s : State} (hs : s.Abandoned n)
    (he : ∀ e, s.nextEvent = some e → e.StartsNoSide) : ∃ t, step s = .next t ∧ t.Abandoned n := by
  obtain ⟨t, h⟩ := exists_step_of_startsNoSide hs.ready he
  obtain ⟨hreset, hsetup, hset⟩ := nextEvent_ne_of_startsNoSide he
  have hquiet (side : Side) := no_pulse_of_idle h (hs.idle side)
  refine ⟨t, h, ready_of_step hs.ready h hsetup, hquiet, fun side => ?_, fun side => ?_⟩
  · by_contra hrun
    obtain ⟨l, r, hc, -⟩ := (step_side h hreset side).starts (hs.idle side) (by simpa using hrun)
    exact hset l r hc
  · rw [← hs.steps side]
    by_contra hne
    obtain ⟨-, hpulse⟩ | ⟨l, r, hc, -⟩ := (step_side h hreset side).steps_writers hne
    · simp [hquiet side] at hpulse
    · exact hset l r hc

/-- Settles O45: `ENABLE 0` abandons the moves, and the events after it leave them so. -/
theorem disablingAbandonsTheMove : Obligations.DisablingAbandonsTheMove := by
  intro s w es k hs hu hd hes
  obtain ⟨t, hx⟩ := exec_total (.enable false) (s.deliver es)
  have hstep : step s = .next t := (step_of_command hs hu hd).trans hx
  have habandoned := abandoned_of_disable hs (nextCommand_of_upcoming hu hd) hstep
  have hrest : ∀ e ∈ t.upcoming.take k, e.StartsNoSide := by
    rw [step_upcoming hstep, hu]
    exact hes
  obtain ⟨hlength, hall⟩ := statesAfter_of_events (fun _ => State.Abandoned.next) k t habandoned hrest
  rw [statesAfter_succ_of_next k hstep]
  refine ⟨by rw [List.length_cons, hlength], fun u hu side => ?_⟩
  have hkept := List.forall_mem_cons.2 ⟨habandoned, hall⟩ u hu
  exact ⟨hkept.quiet side, hkept.idle side, hkept.steps side⟩

end Sys2Proof.Machine
end

section
/-! The motion set-up commands (R105 to R114): `SET_DIRECTION` and `SET_SPEED` are the guarded write `writeIdleSide`, and
`SET_STEPS` loads a count into each record (`Motor.loadCount`) or is rejected whole. -/

namespace Sys2Proof.Machine

/-! ### The guarded write of one field -/

section Write

variable {side : Side} {f : Motor → Motor} {s t : State}

/-- While the side runs, the write is rejected (R105). -/
theorem writeIdleSide_of_busy (hbusy : (s.motor side).running = true) : writeIdleSide side f s = .next s :=
  if_pos hbusy

theorem writeIdleSide_of_idle (hidle : (s.motor side).running = false) :
    writeIdleSide side f s = .next (s.setMotor side (f (s.motor side))) := by
  simp [writeIdleSide, State.sideBusy, hidle]

/-- A guarded write in every state: rejected while the side runs, else a write of that side's record alone (R105). -/
theorem writeIdleSide_effect (side : Side) (f : Motor → Motor) (s : State) :
    ((s.motor side).running = true → writeIdleSide side f s = .next s) ∧
    ((s.motor side).running = false → ∃ t, writeIdleSide side f s = .next t ∧ t.motor side = f (s.motor side) ∧
      t.motor side.other = s.motor side.other ∧ t.enable = s.enable ∧ t.runGate = s.runGate) :=
  ⟨writeIdleSide_of_busy, fun hidle => ⟨_, writeIdleSide_of_idle hidle, s.motor_setMotor side _,
    s.motor_setMotor_other side _, s.setMotor_enable side _, s.setMotor_runGate side _⟩⟩

/-- Rejected or not, a guarded write leaves the other record. -/
theorem writeIdleSide_sides (h : writeIdleSide side f s = .next t) :
    (t.motor side = s.motor side ∨ t.motor side = f (s.motor side)) ∧ t.motor side.other = s.motor side.other := by
  cases hrun : (s.motor side).running with
  | true =>
    rw [writeIdleSide_of_busy hrun] at h
    cases h
    exact ⟨.inl rfl, rfl⟩
  | false =>
    rw [writeIdleSide_of_idle hrun] at h
    cases h
    exact ⟨.inr (s.motor_setMotor side _), s.motor_setMotor_other side _⟩

end Write

/-- Settles O17: the command is the guarded write of `direction` (`writeIdleSide_effect`). -/
theorem setDirectionCommand : Obligations.SetDirectionCommand := by
  intro side d s
  rw [exec_setDirection]
  obtain ⟨hbusy, hidle⟩ := writeIdleSide_effect side (fun m => { m with direction := d }) s
  exact ⟨hbusy, hidle, by cases side <;> cases d <;> decide⟩

/-- Settles O18: the command is the guarded write of `speed` (`writeIdleSide_effect`). -/
theorem setSpeedCommand : Obligations.SetSpeedCommand := by
  intro side p s
  rw [exec_setSpeed]
  obtain ⟨hbusy, hidle⟩ := writeIdleSide_effect side (fun m => { m with speed := p }) s
  exact ⟨hbusy, hidle, by cases side <;> cases p <;> decide⟩

/-! ### The counts of `SET_STEPS` -/

theorem Motor.loadCount_of_pos (m : Motor) {v : Int} (h : 0 < v) : m.loadCount v = m.arm v := by
  simp [Motor.loadCount, isMotion, h]

theorem Motor.loadCount_of_nonpos (m : Motor) {v : Int} (h : v ≤ 0) : m.loadCount v = m.clearSteps := by
  simp [Motor.loadCount, isMotion, h]

/-- A count that fits is stored if it is positive, and 0 otherwise (R110). -/
theorem Motor.sext16_loadCount_steps (m : Motor) {v : Int} (hfit : countInRange v = true) :
    sext16 (m.loadCount v).steps = if 0 < v then v else 0 := by
  split
  case isTrue hpos => rw [m.loadCount_of_pos hpos, Motor.arm_steps, sext16_toWord16 hfit]
  case isFalse hpos =>
    rw [m.loadCount_of_nonpos (by omega)]
    rfl

/-- The state that an accepted `SET_STEPS` answers (`exec_setSteps_of_idle`), seen from one side. -/
theorem State.motor_loadCounts (s : State) (l r : Int) (side : Side) :
    ((s.setMotor .left (s.left.loadCount l)).setMotor .right (s.right.loadCount r)).motor side =
      (s.motor side).loadCount (countFor l r side) := by
  cases side <;> rfl

theorem countInRange_countFor {l r : Int} (h : (Instr.setSteps l r).WellFormed) (side : Side) :
    countInRange (countFor l r side) = true := by
  obtain ⟨hl, hr⟩ := wellFormed_setSteps_iff.1 h
  cases side
  · exact hl
  · exact hr

/-- A command word of format `FS` is its three fields in a row (R61, R66). -/
theorem append_operands (op : OpcodeByte) (l r : Word16) : (op ++ (l ++ r) : CmdWord) = op ++ l ++ r :=
  BitVec.append_assoc.symm

/-- The word of `SET_STEPS`: opcode, left count, right count (R66). -/
theorem encode_setSteps (l r : Int) :
    encode (.setSteps l r) = 0x04#8 ++ BitVec.ofInt 16 l ++ BitVec.ofInt 16 r :=
  append_operands 0x04#8 (toWord16 l) (toWord16 r)

/-- Settles O19: the guard decides between the rejection and the load of both counts, which fit. -/
theorem setStepsCommand : Obligations.SetStepsCommand := by
  intro l r s hwf
  refine ⟨fun hbusy => exec_setSteps_of_busy hbusy l r, fun hl hr => ?_, encode_setSteps l r⟩
  refine ⟨_, exec_setSteps_of_idle hl hr l r, rfl, rfl, fun side => ?_⟩
  rw [State.motor_loadCounts]
  refine ⟨fun hpos => ?_, fun hnonpos => (s.motor side).loadCount_of_nonpos hnonpos⟩
  rw [(s.motor side).loadCount_of_pos hpos]
  exact ⟨sext16_toWord16 (countInRange_countFor hwf side), rfl, rfl, rfl, rfl, rfl, rfl⟩

/-! ### The guard at a step -/

/-- A command that is rejected in the state it is delivered to changes no field of the block and no line, and gives no
output (R105). -/
theorem step_of_rejected {s : State} {w : CmdWord} {rest : List Event} {i : Instr} (hs : s.Ready)
    (hu : s.upcoming = .cmd w :: rest) (hd : decode w = .ok i)
    (hreject : exec i (s.deliver rest) = .next (s.deliver rest)) :
    ∃ t, step s = .next t ∧ t.enable = s.enable ∧ t.runGate = s.runGate ∧ t.left = s.left ∧ t.right = s.right ∧
      t.response = none ∧ (∀ side, t.pulses.has side = false) ∧
      ∀ (bd : Board) (g : Signal), lineLevel bd t g = lineLevel bd s g := by
  have hm (side : Side) := s.motor_deliver rest side
  exact ⟨s.deliver rest, (step_of_command hs hu hd).trans hreject, rfl, rfl, rfl, rfl, rfl, Pulses.has_empty,
    fun bd => lineLevel_congr bd rfl (fun side => congrArg Motor.dirOut (hm side))
      (fun side => congrArg Motor.msOut (hm side))⟩

/-- Settles O20: delivery leaves both records, so the command meets the guard in the state before the step. -/
theorem guardRejectsWithNoEffect : Obligations.GuardRejectsWithNoEffect := by
  intro s w rest i hs hu hd
  have hstep := step_of_command hs hu hd
  refine ⟨fun hguard => step_of_rejected hs hu hd ?_, ?_, ?_, ?_⟩
  · obtain ⟨side, d, rfl, hbusy⟩ | ⟨side, p, rfl, hbusy⟩ | ⟨l, r, rfl, hbusy⟩ := hguard
    · rw [← s.motor_deliver rest side] at hbusy
      rw [exec_setDirection, writeIdleSide_of_busy hbusy]
    · rw [← s.motor_deliver rest side] at hbusy
      rw [exec_setSpeed, writeIdleSide_of_busy hbusy]
    · exact exec_setSteps_of_busy (s := s.deliver rest) hbusy l r
  · rintro side d rfl hidle
    rw [← s.motor_deliver rest side] at hidle
    rw [hstep, exec_setDirection, writeIdleSide_of_idle hidle]
    exact ⟨_, rfl, by rw [State.motor_setMotor]⟩
  · rintro side p rfl hidle
    rw [← s.motor_deliver rest side] at hidle
    rw [hstep, exec_setSpeed, writeIdleSide_of_idle hidle]
    exact ⟨_, rfl, by rw [State.motor_setMotor]⟩
  · rintro l r rfl hl hr
    refine ⟨_, hstep.trans (exec_setSteps_of_idle (s := s.deliver rest) hl hr l r), fun side => ?_⟩
    rw [State.motor_loadCounts]
    exact Motor.sext16_loadCount_steps _ (countInRange_of_decode hd side)

/-! ### The frame -/

/-- What `SET_STEPS` does to one side: nothing, or it arms the side or clears its count (R110). -/
theorem exec_setSteps_side {l r : Int} {s t : State} (h : exec (.setSteps l r) s = .next t) (side : Side) :
    t.motor side = s.motor side ∨
    (0 < countFor l r side ∧ t.motor side = (s.motor side).arm (countFor l r side)) ∨
    (countFor l r side ≤ 0 ∧ t.motor side = (s.motor side).clearSteps) := by
  cases hguard : s.anyBusy with
  | true =>
    rw [exec_setSteps_of_busy (s.anyBusy_eq_true.1 hguard)] at h
    cases h
    exact .inl rfl
  | false =>
    obtain ⟨hl, hr⟩ := s.anyBusy_eq_false.1 hguard
    rw [exec_setSteps_of_idle hl hr] at h
    cases h
    rw [State.motor_loadCounts]
    exact .inr ((s.motor side).loadCount_cases _)

/-- A set-up command writes no shared flag, and of the model's own fields none. -/
theorem exec_setup_frame {i : Instr} {s t : State} (h : exec i s = .next t) (hen : ∀ b, i ≠ .enable b)
    (hgate : ∀ b, i ≠ .setRunning b) (hstatus : i ≠ .status) :
    t.enable = s.enable ∧ t.runGate = s.runGate ∧ t.faulted = s.faulted ∧ t.resetDone = s.resetDone ∧
    t.pulseDiv = s.pulseDiv ∧ t.upcoming = s.upcoming ∧ t.pulses = s.pulses ∧ t.response = s.response := by
  obtain ⟨henable, hrunGate⟩ := exec_flags h
  obtain ⟨hfault, hdone, hdiv, hrest, hpulses, hresp⟩ := exec_carries h
  exact ⟨henable.resolve_right fun ⟨b, hb⟩ => hen b hb, hrunGate.resolve_right fun ⟨b, hb⟩ => hgate b hb,
    hfault, hdone, hdiv, hrest, hpulses, hresp hstatus⟩

/-- Settles O21: the records by the guarded write or by `exec_setSteps_side`, the rest by `exec_setup_frame`. -/
theorem motionSetupFrame : Obligations.MotionSetupFrame := by
  refine fun s t => ⟨fun side d h => ?_, fun side p h => ?_, fun l r h => ?_⟩
  · obtain ⟨hen, hgate, hcarried⟩ := exec_setup_frame h nofun nofun nofun
    rw [exec_setDirection] at h
    obtain ⟨hm, hother⟩ := writeIdleSide_sides h
    refine ⟨hen, hgate, ?_, hother, hcarried⟩
    obtain hm | hm := hm <;> rw [hm]
  · obtain ⟨hen, hgate, hcarried⟩ := exec_setup_frame h nofun nofun nofun
    rw [exec_setSpeed] at h
    obtain ⟨hm, hother⟩ := writeIdleSide_sides h
    refine ⟨hen, hgate, ?_, hother, hcarried⟩
    obtain hm | hm := hm <;> rw [hm]
  · obtain ⟨hen, hgate, hcarried⟩ := exec_setup_frame h nofun nofun nofun
    refine ⟨hen, hgate, fun side => ?_, hcarried⟩
    obtain hm | ⟨hpos, hm⟩ | ⟨-, hm⟩ := exec_setSteps_side h side <;> rw [hm]
    · exact ⟨rfl, rfl, fun _ => ⟨rfl, rfl, rfl, rfl⟩, (absurd rfl ·), (absurd rfl ·)⟩
    · exact ⟨rfl, rfl, fun hnonpos => by omega, fun _ => ⟨hpos, rfl⟩, fun _ => ⟨hpos, rfl⟩⟩
    · exact ⟨rfl, rfl, fun _ => ⟨rfl, rfl, rfl, rfl⟩, (absurd rfl ·), (absurd rfl ·)⟩

end Sys2Proof.Machine
end

section
/-! `STATUS` (R120 to R126). Both halves of the response hold one layout (R121), so each field is read once, for either
side, at its place above the bit where that side's half begins (`statusBase`). -/

namespace Sys2Proof.Machine

theorem exec_status (s : State) : exec .status s = .next { s with response := some s.statusWord } := rfl

theorem State.motor_response (s : State) (v : Option StatusWord) (side : Side) :
    ({ s with response := v } : State).motor side = s.motor side := by cases side <;> rfl

/-- Settles O24: nothing but the response is written, and the lines are those of `ENABLE` and the latches. -/
theorem statusFrame : Obligations.StatusFrame := by
  intro s t h
  obtain rfl := respond_next h
  have hm (side : Side) := s.motor_response (some s.statusWord) side
  exact ⟨rfl, rfl, hm, rfl, rfl, rfl, rfl, rfl, fun bd => lineLevel_congr bd rfl
    (fun side => congrArg Motor.dirOut (hm side)) (fun side => congrArg Motor.msOut (hm side))⟩

/-! ### The fields of the response -/

/-- The lowest bit of a side's half of the response (R121). -/
def statusBase : Side → Nat
  | .left => 0
  | .right => 32

/-- Within a side's half, whose spare bits come last, the fields stand from its lowest bit on. -/
theorem State.statusWord_fields (s : State) (side : Side) :
    s.statusWord.extractLsb' (statusBase side) 21 = s.statusFields side := by
  cases side with
  | left => exact BitVec.extractLsb'_append_eq_right
  | right =>
    simp (disch := decide) only [State.statusWord, statusBase, BitVec.extractLsb'_append_eq_of_le]
    exact BitVec.extractLsb'_append_eq_right

theorem State.statusWord_getLsbD (s : State) (side : Side) {i : Nat} (hi : i < 21) :
    s.statusWord.getLsbD (statusBase side + i) = (s.statusFields side).getLsbD i := by
  rw [← s.statusWord_fields side, BitVec.getLsbD_extractLsb', decide_eq_true hi, Bool.true_and]

theorem State.statusWord_extractLsb' (s : State) (side : Side) {i n : Nat} (hi : i + n ≤ 21) :
    s.statusWord.extractLsb' (statusBase side + i) n = (s.statusFields side).extractLsb' i n := by
  apply BitVec.eq_of_getLsbD_eq
  intro k hk
  rw [BitVec.getLsbD_extractLsb', BitVec.getLsbD_extractLsb', Nat.add_assoc, s.statusWord_getLsbD side (by omega)]

theorem State.statusWord_steps (s : State) (side : Side) :
    s.statusWord.extractLsb' (statusBase side) 16 = (s.motor side).steps := by
  rw [← Nat.add_zero (statusBase side), s.statusWord_extractLsb' side (by decide)]
  exact BitVec.extractLsb'_append_eq_right

theorem State.statusWord_running (s : State) (side : Side) :
    s.statusWord.getLsbD (statusBase side + 16) = (s.motor side).running := by
  rw [s.statusWord_getLsbD side (by decide)]
  simp only [State.statusFields, BitVec.getLsbD_append]
  simp

theorem bitOfDirection_eq_true_iff (d : Direction) : bitOfDirection d = true ↔ d = .backward := by
  cases d <;> decide

theorem State.statusWord_direction (s : State) (side : Side) :
    s.statusWord.getLsbD (statusBase side + 17) = true ↔ (s.motor side).direction = .backward := by
  rw [s.statusWord_getLsbD side (by decide), ← bitOfDirection_eq_true_iff]
  simp only [State.statusFields, BitVec.getLsbD_append]
  simp

theorem State.statusWord_speed (s : State) (side : Side) :
    s.statusWord.extractLsb' (statusBase side + 18) 2 = codeOfResolution (s.motor side).speed := by
  rw [s.statusWord_extractLsb' side (by decide)]
  simp (disch := decide) only [State.statusFields, BitVec.extractLsb'_append_eq_of_le]
  exact BitVec.extractLsb'_append_eq_right

theorem State.statusWord_enabled (s : State) (side : Side) :
    s.statusWord.getLsbD (statusBase side + 20) = s.enable := by
  rw [s.statusWord_getLsbD side (by decide)]
  simp only [State.statusFields, State.enabledOf, BitVec.getLsbD_append]
  simp

theorem State.statusWord_runGate (s : State) : s.statusWord.getLsbD 56 = s.runGate := by
  simp only [State.statusWord, BitVec.getLsbD_append]
  simp

/-- The spare bits above the fields of each half, and above `RUN_GATE`, read as 0. -/
theorem State.statusWord_spare (s : State) :
    s.statusWord.extractLsb' 21 11 = 0#11 ∧ s.statusWord.extractLsb' 53 3 = 0#3 ∧
      s.statusWord.extractLsb' 57 7 = 0#7 := by
  simp (disch := decide) only [State.statusWord, BitVec.extractLsb'_append_eq_of_le,
    BitVec.extractLsb'_append_eq_of_add_le]
  decide

/-- The codes of R121 as numbers. -/
theorem codeOfResolution_toNat (p : Resolution) :
    (codeOfResolution p).toNat = match p with | .full => 0 | .half => 1 | .quarter => 2 | .eighth => 3 := by
  cases p <;> rfl

/-- Settles O23: the response field by field, the layout of a half read once for both sides. -/
theorem statusCommand : Obligations.StatusCommand := by
  intro s
  have hspeed (side : Side) := (congrArg BitVec.toNat (s.statusWord_speed side)).trans (codeOfResolution_toNat _)
  have hrange (hs : s.Ready) (hinv : s.Inv) (side : Side) :
      0 ≤ sext16 (s.statusWord.extractLsb' (statusBase side) 16) ∧
        sext16 (s.statusWord.extractLsb' (statusBase side) 16) ≤ 32767 := by
    obtain ⟨hcount, -⟩ := hinv.motor hs side
    rwa [s.statusWord_steps side]
  obtain ⟨hspareL, hspareR, hspareTop⟩ := s.statusWord_spare
  refine ⟨_, _, exec_status s, rfl, rfl, s.statusWord_steps .left, s.statusWord_running .left,
    s.statusWord_direction .left, hspeed .left, s.statusWord_enabled .left, hspareL, s.statusWord_steps .right,
    s.statusWord_running .right, s.statusWord_direction .right, hspeed .right, s.statusWord_enabled .right, hspareR,
    s.statusWord_runGate, hspareTop, fun hs hinv => ?_, by decide⟩
  obtain ⟨hminL, hmaxL⟩ := hrange hs hinv .left
  obtain ⟨hminR, hmaxR⟩ := hrange hs hinv .right
  exact ⟨hminL, hmaxL, hminR, hmaxR⟩

/-! ### What the response tells -/

/-- A half that says running says at least one step left (R35, R125). -/
theorem State.statusWord_one_le_steps {s : State} (hs : s.Ready) (hinv : s.Inv) (side : Side)
    (hrun : s.statusWord.getLsbD (statusBase side + 16) = true) :
    1 ≤ (s.statusWord.extractLsb' (statusBase side) 16).toInt := by
  rw [s.statusWord_running side] at hrun
  rw [s.statusWord_steps side]
  exact (hinv.motor hs side).one_le_steps hrun

/-- The response reports neither `phase` nor a latch (R123). -/
theorem State.statusFields_congr {s s' : State} {side : Side} {x : Word16} {d : Direction} {p : Resolution}
    (hen : s'.enable = s.enable)
    (hm : s'.motor side = { s.motor side with phase := x, dirOut := d, msOut := p }) :
    s'.statusFields side = s.statusFields side := by
  simp only [State.statusFields, State.enabledOf, hen, hm]

/-- Settles O25: the invariant read through the fields of the response, and the fields that are not reported. -/
theorem statusIsConsistent : Obligations.StatusIsConsistent := by
  refine ⟨fun s t r hs hinv h hr => ?_, fun s t s' t' ⟨hen, hgate, hm⟩ h h' => ?_⟩
  · obtain rfl := respond_next h
    obtain rfl : s.statusWord = r := Option.some.inj hr
    exact ⟨s.statusWord_one_le_steps hs hinv .left, s.statusWord_one_le_steps hs hinv .right,
      (s.statusWord_enabled .left).trans (s.statusWord_enabled .right).symm, _, exec_repeat nofun h, rfl⟩
  · obtain rfl := respond_next h
    obtain rfl := respond_next h'
    have hfields (side : Side) := State.statusFields_congr hen (hm side)
    have hword : s'.statusWord = s.statusWord := by simp only [State.statusWord, hgate, hfields]
    exact congrArg some hword

end Sys2Proof.Machine
end

section
/-! The output lines (R127 to R135). A side's DIR and MS lines show its latches alone (`latchedLine_congr`), so the
writers of those lines are the writers of the latches (`SideStep.latch_writers`). -/

namespace Sys2Proof.Machine

/-! ### Levels -/

/-- The two directions of a side are at different levels (R9, log 5). -/
theorem dirLevel_forward_ne_backward (bd : Board) (side : Side) :
    bd.dirLevel side .forward ≠ bd.dirLevel side .backward :=
  Bool.not_ne_self _ |>.symm

/-- Settles O37: each level is its definition's; the default `MS_PIN_CODE` is read at each resolution. -/
theorem lineLevels : Obligations.LineLevels := by
  intro bd s
  refine ⟨rfl, fun side => ⟨rfl, rfl, dirLevel_forward_ne_backward bd side, rfl, rfl, fun hcode => ?_⟩⟩
  simp only [lineLevel, msCode, hcode]
  cases (s.motor side).msOut <;> rfl

/-! ### Physical lines -/

theorem mem_signalAll (g : Signal) : g ∈ Signal.all := by
  cases g with
  | en => decide
  | step side | dir side | ms1 side | ms2 side => cases side <;> decide

/-- Settles O39: the search for a pin's signal finds one exactly when `PIN_MAP` puts one there, and on a legal board
that is the only one. -/
theorem physicalLines : Obligations.PhysicalLines := by
  rintro bd s ⟨-, hinjective, -⟩
  refine ⟨fun g => ?_, fun pin hunused => ?_⟩
  · have hfind : (Signal.all.find? fun g' => bd.pinMap.get g' == bd.pinMap.get g) = some g := by
      cases hfound : Signal.all.find? fun g' => bd.pinMap.get g' == bd.pinMap.get g with
      | none => exact absurd (beq_self_eq_true _) (List.find?_eq_none.1 hfound g (mem_signalAll g))
      | some g' =>
        have hpin : bd.pinMap.get g' = bd.pinMap.get g := by simpa using List.find?_some hfound
        rw [hinjective g' g hpin]
    rw [physicalLevel, hfind, Option.map_some]
  · have hnone : (Signal.all.find? fun g => bd.pinMap.get g == pin) = none :=
      List.find?_eq_none.2 fun g _ => by simpa using hunused g
    rw [physicalLevel, hnone, Option.map_none]

/-! ### Writers -/

/-- A side's DIR and MS lines show its latches alone (R129, R130). -/
theorem latchedLine_congr (bd : Board) {s t : State} {side : Side} {g : Signal}
    (hg : g = .dir side ∨ g = .ms1 side ∨ g = .ms2 side)
    (hdir : (t.motor side).dirOut = (s.motor side).dirOut) (hms : (t.motor side).msOut = (s.motor side).msOut) :
    lineLevel bd t g = lineLevel bd s g := by
  obtain rfl | rfl | rfl := hg
  · simp only [lineLevel, dirLine, hdir]
  · simp only [lineLevel, msCode, hms]
  · simp only [lineLevel, msCode, hms]

/-- `pulses_of_step_off_tick`, from a pulse. -/
theorem nextEvent_of_pulse {s t : State} {side : Side} (h : step s = .next t) (hp : t.pulses.has side = true) :
    s.nextEvent = some .tick := by
  by_contra he
  rw [pulses_of_step_off_tick h he, Pulses.has_empty] at hp
  exact Bool.false_ne_true hp

/-- Settles O38: the writers of `ENABLE` (`step_flags`), of a pulse, and of the latches, with the `Reset` apart. -/
theorem lineWriters : Obligations.LineWriters := by
  intro bd s t h
  refine ⟨fun hne => or_iff_not_imp_left.2 fun hr => ?_,
    fun side => ⟨nextEvent_of_pulse h, fun g hg hne => or_iff_not_imp_left.2 fun hr => ?_⟩⟩
  · obtain ⟨hen, -⟩ := step_flags h hr
    exact hen.resolve_left fun heq => hne (by simp only [lineLevel, enLine, heq])
  · refine (step_side h hr side).latch_writers ?_
    by_contra! hlatches
    exact hne (latchedLine_congr bd hg hlatches.1 hlatches.2)

/-- Settles O40: a tick pulses a side only where it advances it (R81) with a step left (R83), and writes no `ENABLE`. -/
theorem pulseReachesPoweredDriver : Obligations.PulseReachesPoweredDriver := by
  intro s t side h hp
  have he := nextEvent_of_pulse h hp
  obtain ⟨hadvances, hemits⟩ : s.advances side = true ∧ (s.motor side).emits s.pulseDiv = true := by
    rw [(motor_of_step_tick h he side).2] at hp
    exact Bool.and_eq_true_iff.1 hp
  obtain ⟨hen, hgate, hrun⟩ := (s.advances_iff side).1 hadvances
  obtain ⟨-, hsteps⟩ := Motor.emits_iff.1 hemits
  obtain ⟨hkept, -⟩ := tickFrame s t he h
  exact ⟨he, hen, hgate, hrun, (s.motor side).hasSteps_eq_true_iff.1 hsteps, hkept.trans hen⟩

/-! ### A running side -/

/-- Over every step but a `Reset`, a running side keeps its latches: a pulse loads the set-up they hold already (R37), and
no side is armed during a move (R105). -/
theorem SideStep.latches_of_running {s t : State} {side : Side} {div : PulseDiv} (h : SideStep s t side)
    (hinv : (s.motor side).Inv div) (hrun : (s.motor side).running = true) :
    (t.motor side).dirOut = (s.motor side).dirOut ∧ (t.motor side).msOut = (s.motor side).msOut := by
  cases h with
  | pulse _ _ _ hm =>
    obtain ⟨hdir, hms⟩ := hinv.latches hrun
    rw [hm]
    exact ⟨hdir.symm, hms.symm⟩
  | arm _ _ _ hl hr => simp [State.running_eq_false_of_idle hl hr side] at hrun
  | same hm | count _ _ _ hm | dry _ hm | disable _ hm | direction _ _ _ hm | speed _ _ _ hm | clear _ _ _ _ _ hm =>
    rw [hm]
    exact ⟨rfl, rfl⟩

/-- Settles O41: the lines are those of the latches, which hold the set-up (R37) and are kept (R38). -/
theorem runningSideHoldsItsLines : Obligations.RunningSideHoldsItsLines := by
  intro bd s side hs hinv hrun
  have hm := hinv.motor hs side
  obtain ⟨hdir, hms⟩ := hm.latches hrun
  refine ⟨?_, ?_, ?_, fun t h hr g hg => ?_⟩
  · rw [← hdir, lineLevel, dirLine]
  · rw [← hms, lineLevel, msCode]
  · rw [← hms, lineLevel, msCode]
  · obtain ⟨hdir', hms'⟩ := (step_side h hr side).latches_of_running hm hrun
    exact latchedLine_congr bd hg hdir' hms'

end Sys2Proof.Machine
end

section
/-! What a step answers where it completes nothing (R69, R141, R162): with the events that complete, this is every
answer of a step (`step_answers`). `step_cases` reads the completed step alone. -/

namespace Sys2Proof.Machine

/-- Before the first completed `Reset` neither a command nor a tick is admitted (R162). -/
theorem step_before_reset {s : State} {e : Event} {rest : List Event} (hf : s.faulted = false)
    (hr : s.resetDone = false) (hu : s.upcoming = e :: rest) (he : e = .tick ∨ ∃ w, e = .cmd w) :
    step s = .refused .beforeReset := by
  rw [step_of_event hf hu]
  obtain rfl | ⟨w, rfl⟩ := he
  · simp [onEvent, onTick, hr]
  · simp [onEvent, onCommand, hr]

/-- A ready state takes a command word: it completes the command, or the word is reserved and refused (R69, R140). -/
theorem step_of_word {s : State} {w : CmdWord} {rest : List Event} (hs : s.Ready) (hu : s.upcoming = .cmd w :: rest) :
    (∃ t, step s = .next t) ∨ (IsReserved w ∧ step s = .refused (.reservedWord w)) := by
  cases hd : decode w with
  | ok i => exact .inl (step_of_command hs hu hd ▸ exec_total i _)
  | error e => exact .inr ⟨(reservedWordsRefused w).1.2 ⟨e, hd⟩, step_of_reserved hs hu hd⟩

/-- Every answer of a step: a next state, the fault of a faulted state (R43, R141), or the refusal of a reserved word
(R69) or of an event before the first `Reset` (R162). -/
theorem step_answers (s : State) :
    (∃ t, step s = .next t) ∨
    (s.faulted = true ∧ step s = .fault .setupFailed) ∨
    (∃ w, s.nextEvent = some (.cmd w) ∧ IsReserved w ∧ step s = .refused (.reservedWord w)) ∨
    (s.resetDone = false ∧ step s = .refused .beforeReset) := by
  cases hf : s.faulted with
  | true => exact .inr (.inl ⟨rfl, step_of_faulted hf⟩)
  | false =>
    cases hu : s.upcoming with
    | nil => exact .inl ⟨_, step_of_no_event hf hu⟩
    | cons e rest =>
      cases e with
      | reset => exact .inl ⟨_, step_of_reset hf hu⟩
      | setupFailed => exact .inl ⟨_, step_of_setupFailed hf hu⟩
      | tick =>
        cases hr : s.resetDone with
        | true => exact .inl ⟨_, step_of_tick ⟨hf, hr⟩ hu⟩
        | false => exact .inr (.inr (.inr ⟨rfl, step_before_reset hf hr hu (.inl rfl)⟩))
      | cmd w =>
        cases hr : s.resetDone with
        | true =>
          obtain hnext | hreserved := step_of_word ⟨hf, hr⟩ hu
          · exact .inl hnext
          · exact .inr (.inr (.inl ⟨w, nextEvent_of_upcoming hu, hreserved⟩))
        | false => exact .inr (.inr (.inr ⟨rfl, step_before_reset hf hr hu (.inr ⟨w, rfl⟩)⟩))

/-- Settles O10: commands by `exec_total`, a tick by `step_of_tick`, and the fault and the refusals by the list of every
answer of a step. -/
theorem noRuntimeException : Obligations.NoRuntimeException := by
  refine ⟨exec_total, fun s rest hs hu => ⟨_, step_of_tick hs hu⟩, fun s f h => ?_, fun s r h => ?_⟩
  · obtain ⟨t, ht⟩ | ⟨hf, hs⟩ | ⟨w, -, -, hs⟩ | ⟨-, hs⟩ := step_answers s
    · cases ht.symm.trans h
    · cases hs.symm.trans h
      exact ⟨rfl, hf⟩
    · cases hs.symm.trans h
    · cases hs.symm.trans h
  · obtain ⟨t, ht⟩ | ⟨-, hs⟩ | ⟨w, he, hw, hs⟩ | ⟨hr, hs⟩ := step_answers s
    · cases ht.symm.trans h
    · cases hs.symm.trans h
    · cases hs.symm.trans h
      exact .inl ⟨w, rfl, he, hw⟩
    · cases hs.symm.trans h
      exact .inr ⟨rfl, hr⟩

end Sys2Proof.Machine
end

section
/-! The block before its first completed `Reset` (R162): what stands in its records then has no effect. -/

namespace Sys2Proof.Machine

/-- Settles O12: at power-up no `Reset` is done, so a command and a tick are refused; the state is not faulted, so a
`Reset` and `SetupFailed` complete. -/
theorem nothingBeforeTheFirstReset : Obligations.NothingBeforeTheFirstReset := by
  intro en g l r div rest
  refine ⟨fun w => ?command, ?tick, ?reset, ?setupFailed⟩
  case command => exact step_before_reset rfl rfl rfl (.inr ⟨w, rfl⟩)
  case tick => exact step_before_reset rfl rfl rfl (.inl rfl)
  case reset => exact step_of_reset rfl rfl
  case setupFailed => exact ⟨_, step_of_setupFailed rfl rfl, raiseSetupFailed_faulted _⟩

end Sys2Proof.Machine
end
